-- ==== Sys2Proof/Word.lean ====
section
/-! DEFINITION. The two word types of the block (00_scope.md R8): a byte and the 32-bit CRC word. -/

namespace Sys2Proof

/-- A byte is 8 bits (00_scope.md R8). -/
abbrev Byte := BitVec 8

/-- The width of the CRC accumulator and of a `TBL` entry (00_scope.md R7, `CRC_WIDTH`). -/
abbrev Word := BitVec 32

end Sys2Proof
end

