-- ==== Sys2Proof/Config.lean ====
section
/-! DEFINITION. The parameters of an instance (00_scope.md R7). The model takes each `OPEN` one as an argument: they stand
in `Params`, State carries one `Params`, and no step writes it (log 1). -/

namespace Sys2Proof

/-- `DIALECT` (00_scope.md R7): which codec the instance is built with. -/
inductive Dialect where
  | hf
  | slip
  deriving DecidableEq, Repr

/-- The parameters of one instance (00_scope.md R7, 92_eei_decisions.md section 7). -/
structure Params where
  /-- `DIALECT`, OPEN (D28) -/
  dialect : Dialect
  /-- `CRC_INIT` (D2) -/
  crcInit : Word
  /-- `CRC_XOROUT` (D2) -/
  crcXorout : Word
  /-- `RXBUF_CAP`, OPEN (D29) -/
  rxbufCap : Nat
  /-- `TXPAY_MAX`, OPEN (D29) -/
  txpayMax : Nat
  deriving DecidableEq, Repr

/-- The one bound R7 puts on an OPEN parameter: `RXBUF_CAP` is at least 6. -/
abbrev Params.wf (p : Params) : Prop := 6 ≤ p.rxbufCap

/-- The values of 92_eei_decisions.md section 7. `DIALECT` has no default there: HF is a DESIGN CHOICE (log 2). -/
def Params.default : Params where
  dialect := .hf
  crcInit := 0xFFFFFFFF
  crcXorout := 0xFFFFFFFF
  rxbufCap := 65536
  txpayMax := 65536

end Sys2Proof
end

