-- ==== Sys2Proof/Syntax.lean ====
section
/-! DEFINITION. The instructions: one constructor per row of spec/opcode_table.json. The ten rows of format `REQ` are the
operations of the request port (30_encoding.md R72); the eight others are the wire patterns (R74, R75, R77, R78, R79). -/

namespace Sys2Proof

/-- The rows of spec/opcode_table.json. -/
inductive Instr where
  /-- `CRC.INIT` (R104) -/
  | crcInit
  /-- `CRC.UPD b` (R105) -/
  | crcUpd (b : Byte)
  /-- `CRC.GET` (R106) -/
  | crcGet
  /-- `CRC.CMP v` (R107) -/
  | crcCmp (v : Word)
  /-- `HF.ENCS opc, p` (R131) -/
  | hfEncs (opc : Byte) (p : List Byte)
  /-- `HF.ENCL opc, p` (R132) -/
  | hfEncl (opc : Byte) (p : List Byte)
  /-- `HF.RX n, tmo` (R133) -/
  | hfRx (n tmo : Nat)
  /-- `SLIP.ENC p` (R163) -/
  | slipEnc (p : List Byte)
  /-- `SLIP.DEC f` (R166) -/
  | slipDec (f : List Byte)
  /-- `SLIP.RX n, tmo` (R168) -/
  | slipRx (n tmo : Nat)
  /-- wire row `HF.SHORT`: a short-form frame (R74) -/
  | hfShort (opc : Byte) (p : List Byte)
  /-- wire row `HF.LONG`: a long-form frame (R75) -/
  | hfLong (opc : Byte) (p : List Byte)
  /-- wire row `SLIP.END`: the delimiter (R77) -/
  | slipEnd
  /-- wire row `SLIP.ESC_END`: the symbol of payload byte `C0` (R77) -/
  | slipEscEnd
  /-- wire row `SLIP.ESC_ESC`: the symbol of payload byte `DB` (R77) -/
  | slipEscEsc
  /-- wire row `SLIP.LITERAL`: a byte that stands for itself (R77) -/
  | slipLiteral (b : Byte)
  /-- wire row `SLIP.FRAME`: the frame of the payload `p` (R78) -/
  | slipFrame (p : List Byte)
  /-- wire row `SLIP.SYNC`: the sync pattern with `x` at its open position 2 (R79) -/
  | slipSync (x : Byte)
  deriving DecidableEq, Repr

/-- The layers of encoding (30_encoding.md section 1 and R87): the request port and the wire formats. `hf` is the table's
`HF-S` and `HF-L` together, since one reader tells them apart (R82, R136). -/
inductive Format where
  | req
  | hf
  | slipSym
  | slipFrame
  | sync
  deriving DecidableEq, Repr

/-- The layer a row belongs to (the `format` column of spec/opcode_table.json). -/
def Instr.format : Instr → Format
  | .crcInit | .crcUpd _ | .crcGet | .crcCmp _ => .req
  | .hfEncs _ _ | .hfEncl _ _ | .hfRx _ _ => .req
  | .slipEnc _ | .slipDec _ | .slipRx _ _ => .req
  | .hfShort _ _ | .hfLong _ _ => .hf
  | .slipEnd | .slipEscEnd | .slipEscEsc | .slipLiteral _ => .slipSym
  | .slipFrame _ => .slipFrame
  | .slipSync _ => .sync

end Sys2Proof
end

