-- ==== Sys2Proof/Machine/Wire.lean ====
section
/-! DEFINITION. The wire formats as pure functions: the Header-Framed frames and their parser (42_header_framed.md R130,
R136), the SLIP symbols, frames and the two decoders (43_slip.md R160 to R165), and the sync pattern (R171). Nothing here
reads or writes State. -/

namespace Sys2Proof.Machine

/-! ### Constants (00_scope.md R7) -/

/-- `HF_PRE` -/
def hfPre : List Byte := [0x01, 0xE0, 0xFC]

/-- `HF_EXT` -/
def hfExt : List Byte := [0xFF, 0xF4]

/-- `SLIP_END` (R160) -/
def slipEND : Byte := 0xC0

/-- `SLIP_ESC` (R160) -/
def slipESC : Byte := 0xDB

/-- `SLIP_ESC_END` (R160) -/
def slipESCEND : Byte := 0xDC

/-- `SLIP_ESC_ESC` (R160) -/
def slipESCESC : Byte := 0xDD

/-- `SYNC_LEN` -/
def syncLen : Nat := 6

/-! ### Header-Framed frames -/

/-- `lo8` (00_scope.md R9): bits 7:0 of a length. -/
def lo8 (n : Nat) : Byte := BitVec.ofNat 8 n

/-- `hi8` (00_scope.md R9): bits 15:8 of a length. -/
def hi8 (n : Nat) : Byte := BitVec.ofNat 8 (n / 256)

/-- `hf_short` (R130); it needs `|p| ≤ 254`. -/
def hfShortFrame (opc : Byte) (p : List Byte) : List Byte :=
  hfPre ++ [lo8 (1 + p.length)] ++ [opc] ++ p

/-- `hf_long` (R130); it needs `|p| ≤ 65534`. -/
def hfLongFrame (opc : Byte) (p : List Byte) : List Byte :=
  hfPre ++ hfExt ++ [lo8 (1 + p.length), hi8 (1 + p.length)] ++ [opc] ++ p

/-- The answer of `hf_parse` (R136) where it is not `none`. -/
inductive HfFrame where
  | short (opc : Byte) (p : List Byte)
  | long (opc : Byte) (p : List Byte)
  deriving DecidableEq, Repr

/-- `hf_parse` (R136), for checkers: the long form takes precedence. -/
def hfParse (s : List Byte) : Option HfFrame :=
  match s with
  | b0 :: b1 :: b2 :: b3 :: b4 :: rest =>
    if [b0, b1, b2] = hfPre then
      if [b3, b4] = hfExt then
        match rest with
        | b5 :: b6 :: b7 :: p =>
          if b5.toNat + 256 * b6.toNat = 0 ∨ s.length ≠ 7 + (b5.toNat + 256 * b6.toNat) then none
          else some (.long b7 p)
        | _ => none
      else if b3.toNat = 0 ∨ s.length ≠ 4 + b3.toNat then none
      else some (.short b4 rest)
    else none
  | _ => none

/-- A Header-Framed frame's total length from its first bytes (30_encoding.md R82); a byte that is not there counts as 0. -/
def hfFrameSize (s : List Byte) : Nat :=
  if s.getD 3 0 = 0xFF ∧ s.getD 4 0 = 0xF4 then 7 + ((s.getD 5 0).toNat + 256 * (s.getD 6 0).toNat)
  else 4 + (s.getD 3 0).toNat

/-! ### SLIP symbols and frames -/

/-- `sym` (R161). -/
def slipSym (b : Byte) : List Byte :=
  if b = slipEND then [slipESC, slipESCEND]
  else if b = slipESC then [slipESC, slipESCESC]
  else [b]

/-- `stuff` (R161). -/
def stuff : List Byte → List Byte
  | [] => []
  | b :: rest => slipSym b ++ stuff rest

/-- `slip_enc` (R162). -/
def slipEncFrame (p : List Byte) : List Byte := [slipEND] ++ stuff p ++ [slipEND]

/-- What one raw byte gives after de-stuffing (R164). -/
inductive Unstuffed where
  | nothing
  | byte (d : Byte)
  | error
  deriving DecidableEq, Repr

/-- `unstuff` (R164): the new escape flag, and what the raw byte `b` gives. -/
def unstuff (e : Bool) (b : Byte) : Bool × Unstuffed :=
  if e then
    if b = slipESCEND then (false, .byte slipEND)
    else if b = slipESCESC then (false, .byte slipESC)
    else (false, .error)
  else
    if b = slipEND then (false, .nothing)
    else if b = slipESC then (true, .nothing)
    else (false, .byte b)

/-- The decode failures (30_encoding.md R85). -/
inductive DecFail where
  | noDelim
  | innerEnd
  | escErr
  deriving DecidableEq, Repr

/-- The code of a decode failure (30_encoding.md R85). -/
def DecFail.code : DecFail → Nat
  | .noDelim => 1
  | .innerEnd => 2
  | .escErr => 3

/-- The loop of `slip_dec` over the bytes between the delimiters (R165), from the local escape flag `e`. -/
def slipDecBody (e : Bool) : List Byte → Except DecFail (List Byte)
  | [] => if e then .error .escErr else .ok []
  | b :: rest =>
    if e = false ∧ b = slipEND then .error .innerEnd
    else
      match unstuff e b with
      | (_, .error) => .error .escErr
      | (e', .nothing) => slipDecBody e' rest
      | (e', .byte d) =>
        match slipDecBody e' rest with
        | .ok out => .ok (d :: out)
        | .error r => .error r

/-- `slip_dec` (R165): the strict try-decode of one whole frame. -/
def slipDecFrame (f : List Byte) : Except DecFail (List Byte) :=
  if f.length < 2 ∨ f.head? ≠ some slipEND ∨ f.getLast? ≠ some slipEND then .error .noDelim
  else slipDecBody false f.tail.dropLast

/-! ### The sync pattern -/

/-- The sync pattern `SYNC_PAT` (30_encoding.md R79) with `x` at position 2, as de-stuffed bytes. -/
def syncPattern (x : Byte) : List Byte := [0x04, 0x0E, x, 0x01, 0xE0, 0xFC]

/-- `sync_match` (R171), of six bytes; position 2 is not looked at. -/
def syncMatch (w : List Byte) : Bool :=
  match w with
  | [w0, w1, _, w3, w4, w5] => w0 = 0x04 && w1 = 0x0E && w3 = 0x01 && w4 = 0xE0 && w5 = 0xFC
  | _ => false

end Sys2Proof.Machine
end

