-- ==== Sys2Proof/WellFormed.lean ====
section
/-! DEFINITION. Which terms of `Instr` an encoding can carry. A request's length, timeout and payload length are carried in
32 bits (30_encoding.md R71); a frame's length field bounds its payload (R74, R75); a literal is a byte other than `C0` and
`DB` (R77). The ranges of R73 are NOT here: an operand outside them is a request all the same, and is refused `RANGE`. -/

namespace Sys2Proof

/-- A natural "carried in 32 bits" (30_encoding.md R71). -/
abbrev fits32 (n : Nat) : Prop := n < 2 ^ 32

/-- Some encoding carries the term. -/
def Instr.wellFormed : Instr → Bool
  | .crcInit | .crcUpd _ | .crcGet | .crcCmp _ => true
  | .hfEncs _ p => decide (fits32 p.length)
  | .hfEncl _ p => decide (fits32 p.length)
  | .hfRx n tmo => decide (fits32 n ∧ fits32 tmo)
  | .slipEnc p => decide (fits32 p.length)
  | .slipDec f => decide (fits32 f.length)
  | .slipRx n tmo => decide (fits32 n ∧ fits32 tmo)
  | .hfShort _ p => decide (p.length ≤ 254)
  | .hfLong _ p => decide (p.length ≤ 65534)
  | .slipEnd | .slipEscEnd | .slipEscEsc => true
  | .slipLiteral b => decide (b ≠ 0xC0 ∧ b ≠ 0xDB)
  | .slipFrame _ => true
  | .slipSync _ => true

end Sys2Proof
end

