-- ==== Sys2Proof/Decode.lean ====
section
/-! DEFINITION. The operation map (30_encoding.md R72), the decoder of every format, total on any bytes and rejecting by
name, and after it the encoder. A request is decoded from the byte form of R71. The wire formats are decoded as a checker
of frames decodes them (R87). -/

namespace Sys2Proof

open Sys2Proof.Machine

/-! ### The operation map -/

/-- The ten operations of the request port (30_encoding.md R72). -/
inductive Op where
  | crcInit | crcUpd | crcGet | crcCmp | hfEncs | hfEncl | hfRx | slipEnc | slipDec | slipRx
  deriving DecidableEq, Repr

/-- A row of the operation map of R72. `dialect` is `none` for "any". -/
structure OpRow where
  code : Byte
  mnemonic : String
  op : Op
  dialect : Option Dialect
  deriving DecidableEq, Repr

/-- The operation map (R72). -/
def opRows : List OpRow :=
  [⟨0x10, "CRC.INIT", .crcInit, none⟩,
   ⟨0x11, "CRC.UPD", .crcUpd, none⟩,
   ⟨0x12, "CRC.GET", .crcGet, none⟩,
   ⟨0x13, "CRC.CMP", .crcCmp, none⟩,
   ⟨0x20, "HF.ENCS", .hfEncs, some .hf⟩,
   ⟨0x21, "HF.ENCL", .hfEncl, some .hf⟩,
   ⟨0x22, "HF.RX", .hfRx, some .hf⟩,
   ⟨0x30, "SLIP.ENC", .slipEnc, some .slip⟩,
   ⟨0x31, "SLIP.DEC", .slipDec, some .slip⟩,
   ⟨0x32, "SLIP.RX", .slipRx, some .slip⟩]

/-- The operation an `op` byte names; `none` for the 246 illegal values (R80). -/
def opOf (b : Byte) : Option Op := (opRows.find? (fun r => r.code = b)).map OpRow.op

/-! ### The decoder -/

/-- Why bytes are no encoding of the format asked for. -/
inductive DecodeError where
  /-- no byte at all -/
  | empty
  /-- the `op` byte names no operation (R80) -/
  | badOp (op : Byte)
  /-- the bytes end before the operands do -/
  | truncated
  /-- bytes stand after the end of the one item -/
  | trailing
  /-- `hf_parse` answers `none` (R136) -/
  | notHfFrame
  /-- `DB` followed by a byte other than `DC`, `DD`, or by nothing: not a symbol (R77) -/
  | notSymbol
  /-- `slip_dec` fails (R165) -/
  | notSlipFrame (r : DecFail)
  /-- not six bytes that match the sync pattern (R79) -/
  | notSync
  deriving DecidableEq, Repr

/-- Four bytes, least significant first, as a natural (R71). -/
def le32 (b0 b1 b2 b3 : Byte) : Nat :=
  b0.toNat + 256 * b1.toNat + 65536 * b2.toNat + 16777216 * b3.toNat

/-- Takes a 32-bit item off the front (R71). -/
def takeLe32 : List Byte → Except DecodeError (Nat × List Byte)
  | b0 :: b1 :: b2 :: b3 :: rest => .ok (le32 b0 b1 b2 b3, rest)
  | _ => .error .truncated

/-- Takes a `bytes` operand off the front: its 32-bit length, then its bytes (R71). -/
def takeBytes (s : List Byte) : Except DecodeError (List Byte × List Byte) :=
  match takeLe32 s with
  | .error e => .error e
  | .ok (k, rest) => if rest.length < k then .error .truncated else .ok (rest.take k, rest.drop k)

/-- Takes the operands `n`, `tmo` off the front (R71). -/
def takeLengthTimeout (s : List Byte) : Except DecodeError ((Nat × Nat) × List Byte) :=
  match takeLe32 s with
  | .error e => .error e
  | .ok (n, rest) =>
    match takeLe32 rest with
    | .error e => .error e
    | .ok (tmo, rest') => .ok ((n, tmo), rest')

/-- Takes the operands `opc`, `p` off the front (R71). -/
def takeOpcodeBytes (s : List Byte) : Except DecodeError ((Byte × List Byte) × List Byte) :=
  match s with
  | [] => .error .truncated
  | opc :: rest =>
    match takeBytes rest with
    | .error e => .error e
    | .ok (p, rest') => .ok ((opc, p), rest')

/-- The operands of an operation, from the bytes after `op` (R71, R72), and the bytes that follow the request. -/
def decodeOperands (o : Op) (s : List Byte) : Except DecodeError (Instr × List Byte) :=
  match o with
  | .crcInit => .ok (.crcInit, s)
  | .crcUpd =>
    match s with
    | [] => .error .truncated
    | b :: rest => .ok (.crcUpd b, rest)
  | .crcGet => .ok (.crcGet, s)
  | .crcCmp => (takeLe32 s).map (fun r => (.crcCmp (BitVec.ofNat 32 r.1), r.2))
  | .hfEncs => (takeOpcodeBytes s).map (fun r => (.hfEncs r.1.1 r.1.2, r.2))
  | .hfEncl => (takeOpcodeBytes s).map (fun r => (.hfEncl r.1.1 r.1.2, r.2))
  | .hfRx => (takeLengthTimeout s).map (fun r => (.hfRx r.1.1 r.1.2, r.2))
  | .slipEnc => (takeBytes s).map (fun r => (.slipEnc r.1, r.2))
  | .slipDec => (takeBytes s).map (fun r => (.slipDec r.1, r.2))
  | .slipRx => (takeLengthTimeout s).map (fun r => (.slipRx r.1.1 r.1.2, r.2))

/-- The request at the front of the bytes, and the bytes that follow it. -/
def decodeRequest (s : List Byte) : Except DecodeError (Instr × List Byte) :=
  match s with
  | [] => .error .empty
  | b :: rest =>
    match opOf b with
    | none => .error (.badOp b)
    | some o => decodeOperands o rest

/-- The SLIP symbol at the front of the bytes (R77), and the bytes that follow it. -/
def decodeSymbol (s : List Byte) : Except DecodeError (Instr × List Byte) :=
  match s with
  | [] => .error .empty
  | b :: rest =>
    if b = slipEND then .ok (.slipEnd, rest)
    else if b = slipESC then
      match rest with
      | [] => .error .notSymbol
      | c :: rest' =>
        if c = slipESCEND then .ok (.slipEscEnd, rest')
        else if c = slipESCESC then .ok (.slipEscEsc, rest')
        else .error .notSymbol
    else .ok (.slipLiteral b, rest)

/-- An item is whole: nothing follows it. -/
def wholeItem (r : Except DecodeError (Instr × List Byte)) : Except DecodeError Instr :=
  match r with
  | .error e => .error e
  | .ok (i, []) => .ok i
  | .ok (_, _ :: _) => .error .trailing

/-- The Header-Framed frame that is exactly these bytes (R136). -/
def decodeHf (s : List Byte) : Except DecodeError Instr :=
  match hfParse s with
  | none => .error .notHfFrame
  | some (.short opc p) => .ok (.hfShort opc p)
  | some (.long opc p) => .ok (.hfLong opc p)

/-- The SLIP frame that is exactly these bytes (R78, R165). -/
def decodeSlipFrame (s : List Byte) : Except DecodeError Instr :=
  match slipDecFrame s with
  | .ok p => .ok (.slipFrame p)
  | .error r => .error (.notSlipFrame r)

/-- The sync pattern that is exactly these six bytes (R79). -/
def decodeSync (s : List Byte) : Except DecodeError Instr :=
  if syncMatch s then .ok (.slipSync (s.getD 2 0)) else .error .notSync

/-- The one whole item of format `f` that the bytes are. -/
def decode (f : Format) (s : List Byte) : Except DecodeError Instr :=
  match f with
  | .req => wholeItem (decodeRequest s)
  | .hf => decodeHf s
  | .slipSym => wholeItem (decodeSymbol s)
  | .slipFrame => decodeSlipFrame s
  | .sync => decodeSync s

/-! ### The encoder -/

/-- A natural in 32 bits, least significant byte first (R71). -/
def le32Bytes (n : Nat) : List Byte :=
  [BitVec.ofNat 8 n, BitVec.ofNat 8 (n / 256), BitVec.ofNat 8 (n / 65536), BitVec.ofNat 8 (n / 16777216)]

/-- A `bytes` operand: its length in 32 bits, then its bytes (R71). -/
def bytesOperand (p : List Byte) : List Byte := le32Bytes p.length ++ p

/-- The bytes of an instruction in its own format: R71 for a request, R74 to R79 for a wire row. -/
def encode : Instr → List Byte
  | .crcInit => [0x10]
  | .crcUpd b => [0x11, b]
  | .crcGet => [0x12]
  | .crcCmp v => 0x13 :: le32Bytes v.toNat
  | .hfEncs opc p => 0x20 :: opc :: bytesOperand p
  | .hfEncl opc p => 0x21 :: opc :: bytesOperand p
  | .hfRx n tmo => 0x22 :: (le32Bytes n ++ le32Bytes tmo)
  | .slipEnc p => 0x30 :: bytesOperand p
  | .slipDec f => 0x31 :: bytesOperand f
  | .slipRx n tmo => 0x32 :: (le32Bytes n ++ le32Bytes tmo)
  | .hfShort opc p => hfShortFrame opc p
  | .hfLong opc p => hfLongFrame opc p
  | .slipEnd => [slipEND]
  | .slipEscEnd => [slipESC, slipESCEND]
  | .slipEscEsc => [slipESC, slipESCESC]
  | .slipLiteral b => [b]
  | .slipFrame p => slipEncFrame p
  | .slipSync x => syncPattern x

/-! ### Words numbered as the table numbers them -/

/-- A request's length in bytes from its `op` and its length field (30_encoding.md R82); a byte that is not there counts
as 0. -/
def requestSize (s : List Byte) : Nat :=
  match opOf (s.getD 0 0) with
  | none => 1
  | some .crcInit => 1
  | some .crcUpd => 2
  | some .crcGet => 1
  | some .crcCmp => 5
  | some .hfEncs => 6 + le32 (s.getD 2 0) (s.getD 3 0) (s.getD 4 0) (s.getD 5 0)
  | some .hfEncl => 6 + le32 (s.getD 2 0) (s.getD 3 0) (s.getD 4 0) (s.getD 5 0)
  | some .hfRx => 9
  | some .slipEnc => 5 + le32 (s.getD 1 0) (s.getD 2 0) (s.getD 3 0) (s.getD 4 0)
  | some .slipDec => 5 + le32 (s.getD 1 0) (s.getD 2 0) (s.getD 3 0) (s.getD 4 0)
  | some .slipRx => 9

/-- The bytes of a word of `nbits` bits, bits 7:0 first. -/
def wordBytes (nbits w : Nat) : List Byte :=
  (List.range (nbits / 8)).map (fun k => BitVec.ofNat 8 (w / 2 ^ (8 * k)))

/-- The first `k` bytes of `s`, with zeros where `s` ends before. -/
def takePadded (k : Nat) (s : List Byte) : List Byte := s.take k ++ List.replicate (k - s.length) 0

/-- The format and the exact bytes a table word stands for (log 9). The layers are tried in the order request port,
Header-Framed frame, sync pattern, SLIP frame, escape pair or delimiter, and last the literal, which any other single byte
is; a longer word that is none of these is a request with an illegal `op`. -/
def tableItem (nbits w : Nat) : Format × List Byte :=
  let s := wordBytes nbits w
  if (opOf (s.getD 0 0)).isSome then (.req, takePadded (requestSize s) s)
  else if s.take 3 = hfPre then (.hf, takePadded (hfFrameSize s) s)
  else if syncMatch (s.take 6) then (.sync, s.take 6)
  else if s.getD 0 0 = slipEND then
    match slipDecFrame s with
    | .ok _ => (.slipFrame, s)
    | .error _ => (.slipSym, [slipEND])
  else if s.getD 0 0 = slipESC then (.slipSym, takePadded 2 s)
  else if s.length = 1 then (.slipSym, s)
  else (.req, takePadded (max 1 s.length) s)

/-- The instruction the decoder reads from a word numbered as spec/opcode_table.json numbers it. -/
def decodeTableWord (nbits w : Nat) : Option Instr :=
  match decode (tableItem nbits w).1 (tableItem nbits w).2 with
  | .ok i => some i
  | .error _ => none

end Sys2Proof
end

