-- ==== Sys2Proof/Machine/State.lean ====
section
/-! DEFINITION. The state of the machine: the seven registers of 10_state.md R20, the ports of R30 with the hidden state of
R33, the parameters of 00_scope.md R7, and the agents' moves still to come (log 3); the state after power-up; the faults
and the refusals. -/

namespace Sys2Proof.Machine

/-- `rxphase` (10_state.md R23); code 3 is not used. -/
inductive RxPhase where
  | idle
  | search
  | collect
  deriving DecidableEq, Repr

/-- `status` (10_state.md R27). -/
inductive Status where
  | none
  | ok
  | timeout
  | cancelled
  | escErr
  deriving DecidableEq, Repr

/-- The refusal reasons (41_common.md R122). These are the block's answers to a request, each in a next state; they are not
`Refusal`, which stops the model. -/
inductive RefuseReason where
  | busy
  | badOp
  | wrongDialect
  | range
  deriving DecidableEq, Repr

/-- What `ACCEPT(value)` carries (10_state.md R30). -/
inductive AcceptValue where
  /-- nothing: `CRC.INIT`, `CRC.UPD`, `HF.RX`, `SLIP.RX` -/
  | unit
  /-- a 32-bit value: `CRC.GET` -/
  | word (v : Word)
  /-- one bit: `CRC.CMP` -/
  | bit (b : Bool)
  /-- the emitted frame: `HF.ENCS`, `HF.ENCL`, `SLIP.ENC` -/
  | frame (s : List Byte)
  /-- `DECODED(payload)`: `SLIP.DEC` -/
  | decoded (p : List Byte)
  /-- `DECFAIL(reason)`: `SLIP.DEC` -/
  | decFail (r : DecFail)
  deriving DecidableEq, Repr

/-- One response at `RSP` (10_state.md R30). -/
inductive Response where
  | refuse (r : RefuseReason)
  | accept (v : AcceptValue)
  | done (code : Status) (bytes : List Byte)
  deriving DecidableEq, Repr

/-- One move of an agent (00_scope.md R6, 60_exceptions.md R217; log 3). -/
inductive Move where
  /-- The host presents a request at `REQ` (format `req`), or the transport delivers a wire pattern of the table. -/
  | present (f : Format) (bytes : List Byte)
  /-- The block has its turn: one receive step if one is enabled (41_common.md R125). -/
  | block
  /-- The transport appends bytes, whatever they are, to `RXS`. -/
  | rx (bytes : List Byte)
  /-- The transport takes `n` bytes from the head of `TXS` (all of them where there are fewer). -/
  | txTake (n : Nat)
  /-- The transport offers `TMO`. -/
  | tmo
  /-- The host sets the `CANCEL` level. -/
  | cancel (level : Bool)
  /-- The host asserts `RESET`, with a request in the same step or without (70_reset_and_hazards.md R230). -/
  | reset (withRequest : Option (List Byte))
  deriving DecidableEq, Repr

/-- The machine's state. -/
structure State where
  /-- the parameters of the instance (00_scope.md R7; log 1) -/
  params : Params
  /-- the CRC accumulator (R21) -/
  crc : Word
  /-- `crc_match` (R22) -/
  crcMatch : Bool
  /-- the sequencing register (R23) -/
  rxphase : RxPhase
  /-- escape in progress (R24) -/
  esc : Bool
  /-- the receive buffer (R25) -/
  rxbuf : List Byte
  /-- the expected length (R26) -/
  explen : Nat
  /-- how the last receive operation ended (R27) -/
  status : Status
  /-- `RXS`, head first (20_memory.md R50) -/
  rxs : List Byte
  /-- `TXS`, head first (20_memory.md R50) -/
  txs : List Byte
  /-- the `CANCEL` level (60_exceptions.md R205) -/
  cancel : Bool
  /-- the timeout last passed to the transport's timer (10_state.md R33 (b); log 11) -/
  timer : Option Nat
  /-- the responses given at `RSP`, oldest first (10_state.md R30; log 10) -/
  rsp : List Response
  /-- the model's own field: the moves still to come (log 3) -/
  sched : List Move
  deriving DecidableEq, Repr

/-- An instance that comes to exist (70_reset_and_hazards.md R231): the registers as 10_state.md R35 says; the streams, the
`CANCEL` level and the timer of the other agents as log 12 says; no move placed yet (log 15). -/
def State.powerUp (p : Params) : State where
  params := p
  crc := p.crcInit
  crcMatch := false
  rxphase := .idle
  esc := false
  rxbuf := []
  explen := 1
  status := .none
  rxs := []
  txs := []
  cancel := false
  timer := none
  rsp := []
  sched := []

/-- The machine right after reset, at the default parameters (log 2). -/
def State.reset : State := State.powerUp Params.default

/-- No step faults: "The block never traps" (60_exceptions.md R200), and no rule asks a model to fault
(93_implementation_defined.md 1.5). So there is no constructor. -/
inductive Fault where
  deriving DecidableEq, Repr

/-- What the model has no step for. -/
inductive Refusal where
  /-- Raised by an arm of `exec` for an instruction that has no meaning yet; no arm raises it. Safe. -/
  | notModelled (mnemonic : String)
  /-- Raised by `step` alone, where a `present` move carries bytes that are no whole item of its format; the ports carry
  whole values (10_state.md R30), so no agent can make such a move (log 6). An illegal `op` is NOT this: it is answered
  `REFUSE(BAD_OP)`. Safe. -/
  | malformed (e : DecodeError)
  deriving DecidableEq, Repr

end Sys2Proof.Machine
end

