-- ==== Sys2Proof/Machine/Ops.lean ====
section
/-! DEFINITION. The named operations over registers, buffers and streams (20_memory.md R59), the acceptance test of a request
(41_common.md R120, R121), the end of a receive operation (R126), which is what this block has in place of taking an
exception (60_exceptions.md R208), and the block's reset (70_reset_and_hazards.md R230, R232). -/

namespace Sys2Proof.Machine

/-! ### Registers: one write for each -/

/-- `crc <- v` -/
def State.writeCrc (s : State) (v : Word) : State := { s with crc := v }

/-- `crc_match <- b` -/
def State.writeCrcMatch (s : State) (b : Bool) : State := { s with crcMatch := b }

/-- `rxphase <- p` -/
def State.writePhase (s : State) (p : RxPhase) : State := { s with rxphase := p }

/-- `esc <- b` -/
def State.writeEsc (s : State) (b : Bool) : State := { s with esc := b }

/-- `rxbuf <- d` -/
def State.writeRxbuf (s : State) (d : List Byte) : State := { s with rxbuf := d }

/-- `explen <- n` -/
def State.writeExplen (s : State) (n : Nat) : State := { s with explen := n }

/-- `status <- c` -/
def State.writeStatus (s : State) (c : Status) : State := { s with status := c }

/-! ### Streams and ports -/

/-- `TXS.push(d)` (20_memory.md R59) -/
def State.txsPush (s : State) (d : List Byte) : State := { s with txs := s.txs ++ d }

/-- The transport appends `d` at the tail of `RXS` (20_memory.md R50). -/
def State.rxsAppend (s : State) (d : List Byte) : State := { s with rxs := s.rxs ++ d }

/-- What `RXS.pop()` leaves: the head byte is gone (20_memory.md R59). -/
def State.rxsPop (s : State) : State := { s with rxs := s.rxs.tail }

/-- The transport takes `n` bytes from the head of `TXS` (20_memory.md R50). -/
def State.txsTake (s : State) (n : Nat) : State := { s with txs := s.txs.drop n }

/-- The host sets the `CANCEL` level (60_exceptions.md R205). -/
def State.writeCancel (s : State) (b : Bool) : State := { s with cancel := b }

/-- "`tmo` is passed to the transport's timer" (41_common.md R125; log 11). -/
def State.passTimeout (s : State) (tmo : Nat) : State := { s with timer := some tmo }

/-- A response is put on `RSP` (10_state.md R30). -/
def State.respond (s : State) (r : Response) : State := { s with rsp := s.rsp ++ [r] }

/-! ### Taking a request -/

/-- `refuse(reason)` (41_common.md R121). -/
def State.refuse (s : State) (r : RefuseReason) : State := s.respond (.refuse r)

/-- The acceptance test for an operation of the map (R120): its dialect (`none` for "any") and whether its operands are in
range. The test for an illegal `op` stands between the first two, in `badOpReason`. -/
def refusalReason (dialect : Option Dialect) (inRange : Bool) (s : State) : Option RefuseReason :=
  if s.rxphase ≠ .idle then some .busy
  else if dialect ≠ none ∧ dialect ≠ some s.params.dialect then some .wrongDialect
  else if inRange = false then some .range
  else none

/-- The refusal of a request whose `op` is illegal (R120): `BUSY` is tested first. -/
def badOpReason (s : State) : RefuseReason := if s.rxphase ≠ .idle then .busy else .badOp

/-- Takes a request (R120): refuses it, or performs it by its own rule. -/
def takeRequest (dialect : Option Dialect) (inRange : Bool) (perform : State → State) (s : State) :
    Host.Outcome State Fault Refusal :=
  match refusalReason dialect inRange s with
  | some r => .next (s.refuse r)
  | none => .next (perform s)

/-- An encode operation's effect: the whole frame on `TXS` and in the answer, in one step (R123). -/
def State.emit (s : State) (frame : List Byte) : State :=
  (s.txsPush frame).respond (.accept (.frame frame))

/-! ### Receive operations: start and end -/

/-- The start of a receive operation (R124, 42_header_framed.md R133, 43_slip.md R168), in the phase `p`. -/
def State.startReceive (s : State) (p : RxPhase) (n tmo : Nat) : State :=
  (((((s.writeExplen n).writeRxbuf []).writeStatus .none).writePhase p).passTimeout tmo).respond (.accept .unit)

/-- What `rxbuf` holds once the operation has ended: nothing if it was still searching (R126). -/
def finishedBuffer (s : State) : List Byte := if s.rxphase = .search then [] else s.rxbuf

/-- `finish(code)` (R126). -/
def State.finish (s : State) (code : Status) : State :=
  (((s.writeRxbuf (finishedBuffer s)).writeStatus code).writePhase .idle).respond (.done code (finishedBuffer s))

/-! ### Reset -/

/-- `RESET` (70_reset_and_hazards.md R230): every register takes its value of 10_state.md R35; the streams, `CANCEL` and the
parameters are not touched (R232), and no response is given. -/
def State.resetBlock (s : State) : State :=
  { s with
    crc := s.params.crcInit
    crcMatch := false
    rxphase := .idle
    esc := false
    rxbuf := []
    explen := 1
    status := .none }

end Sys2Proof.Machine
end

