-- ==== Sys2Proof/Machine/Flags.lean ====
section
/-! DEFINITION. The codes of the flags and of the responses (10_state.md R23, R27, 30_encoding.md R85), the one flag an
instruction computes (`crc_match`, 40_crc32.md R107), and the read-only `STATUS` view (10_state.md R31). -/

namespace Sys2Proof.Machine

/-- The code of a phase (10_state.md R23). -/
def RxPhase.code : RxPhase → Nat
  | .idle => 0
  | .search => 1
  | .collect => 2

/-- The code of a status (10_state.md R27). -/
def Status.code : Status → Nat
  | .none => 0
  | .ok => 1
  | .timeout => 2
  | .cancelled => 3
  | .escErr => 4

/-- The code of a refusal reason (30_encoding.md R85). -/
def RefuseReason.code : RefuseReason → Nat
  | .busy => 1
  | .badOp => 2
  | .wrongDialect => 3
  | .range => 4

/-- A Bool as the number of a 1-bit field. -/
def bitNat (b : Bool) : Nat := if b then 1 else 0

/-- The finalised CRC of the accumulator (40_crc32.md R106). -/
def finalCrc (s : State) : Word := s.crc ^^^ s.params.crcXorout

/-- The flag `CRC.CMP v` computes: all 32 bits of the finalised CRC against `v` (40_crc32.md R107). -/
def crcMatches (v : Word) (s : State) : Bool := decide (finalCrc s = v)

/-- The field `DIAL` (10_state.md R31). -/
def dialectCode : Dialect → Nat
  | .hf => 0
  | .slip => 1

/-- The `STATUS` view (10_state.md R31): `PHASE` 1:0, `ESC` 2, `CODE` 5:3, `MATCH` 6, `DIAL` 7. -/
def State.statusView (s : State) : BitVec 8 :=
  BitVec.ofNat 8
    (s.rxphase.code + 4 * bitNat s.esc + 8 * s.status.code + 64 * bitNat s.crcMatch
      + 128 * dialectCode s.params.dialect)

end Sys2Proof.Machine
end

