-- ==== Sys2Proof/Machine/Operands.lean ====
section
/-! DEFINITION. The operand ranges of 30_encoding.md R73. The operand kinds themselves (R71) are read in Decode.lean. -/

namespace Sys2Proof.Machine

/-- `HF_SHORT_MAX` (00_scope.md R7) -/
def hfShortMax : Nat := 254

/-- `HF_LONG_MAX` (00_scope.md R7) -/
def hfLongMax : Nat := 65534

/-- `HF.ENCS`: `|p| ≤ 254`. -/
def hfEncsInRange (p : List Byte) : Bool := decide (p.length ≤ hfShortMax)

/-- `HF.ENCL`: `|p| ≤ 65534`. -/
def hfEnclInRange (p : List Byte) : Bool := decide (p.length ≤ hfLongMax)

/-- `HF.RX`: `1 ≤ n ≤ RXBUF_CAP`. -/
def hfRxInRange (n : Nat) (s : State) : Bool := decide (1 ≤ n ∧ n ≤ s.params.rxbufCap)

/-- `SLIP.ENC`: `|p| ≤ TXPAY_MAX`. -/
def slipEncInRange (p : List Byte) (s : State) : Bool := decide (p.length ≤ s.params.txpayMax)

/-- `SLIP.DEC`: `|f| ≤ 2 * TXPAY_MAX + 2`. -/
def slipDecInRange (f : List Byte) (s : State) : Bool := decide (f.length ≤ 2 * s.params.txpayMax + 2)

/-- `SLIP.RX`: `6 ≤ n ≤ RXBUF_CAP`. -/
def slipRxInRange (n : Nat) (s : State) : Bool := decide (syncLen ≤ n ∧ n ≤ s.params.rxbufCap)

end Sys2Proof.Machine
end

