-- ==== Sys2Proof/Machine/Crc.lean ====
section
/-! DEFINITION. The CRC32 engine (40_crc32.md): the table, the functions of R103, and the four operations. -/

namespace Sys2Proof.Machine

/-! ### The CRC that is computed -/

/-- `CRC_POLY` (00_scope.md R7) -/
def crcPoly : Word := 0xEDB88320

/-- One of the eight steps of R101, which are also those of R109. -/
def crcShift (c : Word) : Word :=
  if c.getLsbD 0 then (c >>> 1) ^^^ crcPoly else c >>> 1

/-- `k` of them. -/
def crcShifts : Nat → Word → Word
  | 0, c => c
  | k + 1, c => crcShifts k (crcShift c)

/-- `T[i]` (R101), which is `TBL[i]` (20_memory.md R51). -/
def crcTable (i : Byte) : Word := crcShifts 8 (i.setWidth 32)

/-- `crc_step` (R103). -/
def crcStep (c : Word) (b : Byte) : Word :=
  crcTable ((c ^^^ b.setWidth 32).setWidth 8) ^^^ (c >>> 8)

/-- The accumulator `c` after the bytes of `d`, in order. -/
def crcFeed (c : Word) (d : List Byte) : Word := d.foldl crcStep c

/-- `crc_acc` (R103), at the parameter `CRC_INIT`. -/
def crcAcc (p : Params) (d : List Byte) : Word := crcFeed p.crcInit d

/-- `crc32` (R103), at the parameters `CRC_INIT` and `CRC_XOROUT`. -/
def crc32 (p : Params) (d : List Byte) : Word := crcAcc p d ^^^ p.crcXorout

/-! ### The operations -/

/-- `CRC.INIT` (R104). -/
def performCrcInit (s : State) : State :=
  (s.writeCrc s.params.crcInit).respond (.accept .unit)

/-- `CRC.UPD b` (R105). -/
def performCrcUpd (b : Byte) (s : State) : State :=
  (s.writeCrc (crcStep s.crc b)).respond (.accept .unit)

/-- `CRC.GET` (R106). -/
def performCrcGet (s : State) : State := s.respond (.accept (.word (finalCrc s)))

/-- `CRC.CMP v` (R107). -/
def performCrcCmp (v : Word) (s : State) : State :=
  (s.writeCrcMatch (crcMatches v s)).respond (.accept (.bit (crcMatches v s)))

/-- `CRC.INIT` at the request port (R104, R120). -/
def execCrcInit (s : State) : Host.Outcome State Fault Refusal :=
  takeRequest none true performCrcInit s

/-- `CRC.UPD b` at the request port (R105, R120). -/
def execCrcUpd (b : Byte) (s : State) : Host.Outcome State Fault Refusal :=
  takeRequest none true (performCrcUpd b) s

/-- `CRC.GET` at the request port (R106, R120). -/
def execCrcGet (s : State) : Host.Outcome State Fault Refusal :=
  takeRequest none true performCrcGet s

/-- `CRC.CMP v` at the request port (R107, R120). -/
def execCrcCmp (v : Word) (s : State) : Host.Outcome State Fault Refusal :=
  takeRequest none true (performCrcCmp v) s

end Sys2Proof.Machine
end

