-- ==== Sys2Proof/Machine/HeaderFramed.lean ====
section
/-! DEFINITION. The Header-Framed operations (42_header_framed.md R131 to R133). The steps of a running `HF.RX` are
Receive.lean's. -/

namespace Sys2Proof.Machine

/-- `HF.ENCS opc, p` (R131). -/
def execHfEncs (opc : Byte) (p : List Byte) (s : State) : Host.Outcome State Fault Refusal :=
  takeRequest (some .hf) (hfEncsInRange p) (fun s => s.emit (hfShortFrame opc p)) s

/-- `HF.ENCL opc, p` (R132). -/
def execHfEncl (opc : Byte) (p : List Byte) (s : State) : Host.Outcome State Fault Refusal :=
  takeRequest (some .hf) (hfEnclInRange p) (fun s => s.emit (hfLongFrame opc p)) s

/-- `HF.RX n, tmo` (R133): straight to `COLLECT`. -/
def execHfRx (n tmo : Nat) (s : State) : Host.Outcome State Fault Refusal :=
  takeRequest (some .hf) (hfRxInRange n s) (fun s => s.startReceive .collect n tmo) s

end Sys2Proof.Machine
end

