-- ==== Sys2Proof/Machine/Slip.lean ====
section
/-! DEFINITION. The SLIP-Escaped operations (43_slip.md R163, R166, R168). The steps of a running `SLIP.RX` are
Receive.lean's. -/

namespace Sys2Proof.Machine

/-- `SLIP.ENC p` (R163). -/
def execSlipEnc (p : List Byte) (s : State) : Host.Outcome State Fault Refusal :=
  takeRequest (some .slip) (slipEncInRange p s) (fun s => s.emit (slipEncFrame p)) s

/-- The answer of `SLIP.DEC f` (R166): a failure is an answer, not a refusal. -/
def slipDecAnswer (f : List Byte) : AcceptValue :=
  match slipDecFrame f with
  | .ok p => .decoded p
  | .error r => .decFail r

/-- `SLIP.DEC f` (R166): it writes no register. -/
def execSlipDec (f : List Byte) (s : State) : Host.Outcome State Fault Refusal :=
  takeRequest (some .slip) (slipDecInRange f s) (fun s => s.respond (.accept (slipDecAnswer f))) s

/-- `SLIP.RX n, tmo` (R168): the search begins with an empty window, and `esc` keeps its value. -/
def execSlipRx (n tmo : Nat) (s : State) : Host.Outcome State Fault Refusal :=
  takeRequest (some .slip) (slipRxInRange n s) (fun s => s.startReceive .search n tmo) s

end Sys2Proof.Machine
end

