-- ==== Sys2Proof/Machine/WireRows.lean ====
section
/-! DEFINITION. The meanings of the table's eight wire rows (30_encoding.md R74, R75, R77 to R79). They are no operations of
the request port (R87): a wire row runs when its pattern arrives on the wire, and its effect is that the transport appends
the pattern's raw bytes at the tail of `RXS` (20_memory.md R64, 60_exceptions.md R217), at any time, whatever the block is
doing. DESIGN CHOICE (logs 7, 8). What the block makes of the bytes is the receive step's (Receive.lean). -/

namespace Sys2Proof.Machine

/-- `HF.SHORT` (R74). -/
def execHfShort (opc : Byte) (p : List Byte) (s : State) : Host.Outcome State Fault Refusal :=
  .next (s.rxsAppend (hfShortFrame opc p))

/-- `HF.LONG` (R75). -/
def execHfLong (opc : Byte) (p : List Byte) (s : State) : Host.Outcome State Fault Refusal :=
  .next (s.rxsAppend (hfLongFrame opc p))

/-- `SLIP.END` (R77). -/
def execSlipEnd (s : State) : Host.Outcome State Fault Refusal := .next (s.rxsAppend [slipEND])

/-- `SLIP.ESC_END` (R77). -/
def execSlipEscEnd (s : State) : Host.Outcome State Fault Refusal :=
  .next (s.rxsAppend [slipESC, slipESCEND])

/-- `SLIP.ESC_ESC` (R77). -/
def execSlipEscEsc (s : State) : Host.Outcome State Fault Refusal :=
  .next (s.rxsAppend [slipESC, slipESCESC])

/-- `SLIP.LITERAL` (R77). -/
def execSlipLiteral (b : Byte) (s : State) : Host.Outcome State Fault Refusal := .next (s.rxsAppend [b])

/-- `SLIP.FRAME` (R78). -/
def execSlipFrame (p : List Byte) (s : State) : Host.Outcome State Fault Refusal :=
  .next (s.rxsAppend (slipEncFrame p))

/-- `SLIP.SYNC` (R79): the pattern is one of the de-stuffed stream, so its raw bytes are its symbols (43_slip.md R171;
log 8). -/
def execSlipSync (x : Byte) (s : State) : Host.Outcome State Fault Refusal :=
  .next (s.rxsAppend (stuff (syncPattern x)))

end Sys2Proof.Machine
end

