-- ==== Sys2Proof/Machine/Dispatch.lean ====
section
/-! DEFINITION. One arm per constructor of `Instr`. -/

namespace Sys2Proof.Machine

def exec (i : Instr) (s : State) : Host.Outcome State Fault Refusal :=
  match i with
  | .crcInit => Sys2Proof.Machine.execCrcInit s
  | .crcUpd b => Sys2Proof.Machine.execCrcUpd b s
  | .crcGet => Sys2Proof.Machine.execCrcGet s
  | .crcCmp v => Sys2Proof.Machine.execCrcCmp v s
  | .hfEncs opc p => Sys2Proof.Machine.execHfEncs opc p s
  | .hfEncl opc p => Sys2Proof.Machine.execHfEncl opc p s
  | .hfRx n tmo => Sys2Proof.Machine.execHfRx n tmo s
  | .slipEnc p => Sys2Proof.Machine.execSlipEnc p s
  | .slipDec f => Sys2Proof.Machine.execSlipDec f s
  | .slipRx n tmo => Sys2Proof.Machine.execSlipRx n tmo s
  | .hfShort opc p => Sys2Proof.Machine.execHfShort opc p s
  | .hfLong opc p => Sys2Proof.Machine.execHfLong opc p s
  | .slipEnd => Sys2Proof.Machine.execSlipEnd s
  | .slipEscEnd => Sys2Proof.Machine.execSlipEscEnd s
  | .slipEscEsc => Sys2Proof.Machine.execSlipEscEsc s
  | .slipLiteral b => Sys2Proof.Machine.execSlipLiteral b s
  | .slipFrame p => Sys2Proof.Machine.execSlipFrame p s
  | .slipSync x => Sys2Proof.Machine.execSlipSync x s

end Sys2Proof.Machine
end

