-- ==== Sys2Proof/Machine/Receive.lean ====
section
/-! DEFINITION. The receive step (41_common.md R125) and the byte steps of the two dialects (42_header_framed.md R134;
43_slip.md R169, R170). -/

namespace Sys2Proof.Machine

/-- The completion test: in `COLLECT`, the `explen`-th byte ends the operation (R134, R170). -/
def completionTest (s : State) : State :=
  if s.rxphase = .collect ∧ s.rxbuf.length = s.explen then s.finish .ok else s

/-- The search test on the window (R170): six bytes that match begin the collection, six that do not lose the oldest. -/
def searchTest (s : State) : State :=
  if s.rxphase = .search ∧ s.rxbuf.length = syncLen then
    if syncMatch s.rxbuf then s.writePhase .collect else s.writeRxbuf (s.rxbuf.drop 1)
  else s

/-- `deliver(d)` (R170): append, then the search test, then the completion test. -/
def State.deliver (s : State) (d : Byte) : State :=
  completionTest (searchTest (s.writeRxbuf (s.rxbuf ++ [d])))

/-- `consume(b)` under `DIALECT = HF` (R134): every byte is kept. -/
def State.consumeHf (s : State) (b : Byte) : State :=
  if s.rxbuf.length + 1 = s.explen then (s.writeRxbuf (s.rxbuf ++ [b])).finish .ok
  else s.writeRxbuf (s.rxbuf ++ [b])

/-- `consume(b)` under `DIALECT = SLIP` (R169). -/
def State.consumeSlip (s : State) (b : Byte) : State :=
  match unstuff s.esc b with
  | (e, .error) => (s.writeEsc e).finish .escErr
  | (e, .byte d) => (s.writeEsc e).deliver d
  | (e, .nothing) => s.writeEsc e

/-- `consume(b)` (R125). -/
def State.consume (s : State) (b : Byte) : State :=
  match s.params.dialect with
  | .hf => s.consumeHf b
  | .slip => s.consumeSlip b

/-- The receive step (R125), with `TMO` offered or not. Where no arm is enabled the block waits: the state stays as it is
(log 5). -/
def rxStep (tmoOffered : Bool) (s : State) : State :=
  if s.rxphase = .idle then s
  else if s.cancel then s.finish .cancelled
  else
    match s.rxs with
    | b :: _ => s.rxsPop.consume b
    | [] => if tmoOffered then s.finish .timeout else s

/-- The block's turn while no `TMO` is offered. -/
def blockTurn (s : State) : State := rxStep false s

/-- `TMO` is offered (60_exceptions.md R206): it is taken only while a receive operation runs with `RXS` empty and
`CANCEL = 0`; at any other moment it is ignored and not remembered (log 13). -/
def offerTimeout (s : State) : State :=
  if s.cancel = false ∧ s.rxs = [] then rxStep true s else s

end Sys2Proof.Machine
end

