-- ==== Sys2Proof/Machine/Env.lean ====
section
/-! DEFINITION. What the next step does: the head of `sched` is one agent's move, and an empty `sched` gives the block its
turn (logs 3, 4). A presented item is decoded here; Step.lean only runs what this file answers. -/

namespace Sys2Proof.Machine

/-- What a step comes down to. -/
inductive Action where
  /-- run the decoded instruction `i` at `s` -/
  | run (i : Instr) (s : State)
  /-- an agent has moved, and no instruction runs -/
  | moved (s : State)
  /-- no agent can make such a move (log 6) -/
  | refused (r : Refusal)
  deriving DecidableEq, Repr

/-- An item is presented: it is decoded by its format; an illegal `op` is answered as R80 and R120 say. -/
def presentAction (f : Format) (bytes : List Byte) (s : State) : Action :=
  match decode f bytes with
  | .ok i => .run i s
  | .error (.badOp _) => .moved (s.refuse (badOpReason s))
  | .error e => .refused (.malformed e)

/-- One agent's move (00_scope.md R6). A request in the same step as `RESET` is ignored (70_reset_and_hazards.md R230). -/
def moveAction (m : Move) (s : State) : Action :=
  match m with
  | .present f bytes => presentAction f bytes s
  | .block => .moved (blockTurn s)
  | .rx bytes => .moved (s.rxsAppend bytes)
  | .txTake n => .moved (s.txsTake n)
  | .tmo => .moved (offerTimeout s)
  | .cancel level => .moved (s.writeCancel level)
  | .reset _ => .moved s.resetBlock

/-- The move at the head of `sched` is taken off it. -/
def State.dropMove (s : State) : State := { s with sched := s.sched.tail }

/-- The next step. -/
def nextAction (s : State) : Action :=
  match s.sched with
  | [] => .moved (blockTurn s)
  | m :: _ => moveAction m s.dropMove

/-- The table word's item is placed as the very next move (log 15). -/
def State.placeTableWord (s : State) (nbits w : Nat) : State :=
  { s with sched := .present (tableItem nbits w).1 (tableItem nbits w).2 :: s.sched }

end Sys2Proof.Machine
end

