-- ==== Sys2Proof/Machine/Step.lean ====
section
/-! DEFINITION. The step: it runs what `nextAction` answers (00_scope.md R5). -/

namespace Sys2Proof.Machine

/-- One step of the machine. -/
def step (s : State) : Host.Outcome State Fault Refusal :=
  match nextAction s with
  | .run i t => exec i t
  | .moved t => .next t
  | .refused r => .refused r

/-- The state with the table word's instruction placed where the next step takes its move. -/
def State.withFetchWord (s : State) (nbits w : Nat) : State := s.placeTableWord nbits w

end Sys2Proof.Machine
end

