-- ==== Sys2Proof/Machine/Pseudo.lean ====
section
/-! DEFINITION. The pseudo-operations of 30_encoding.md R84: "an abbreviation for a sequence of requests and nothing
more". -/

namespace Sys2Proof.Machine

/-- `CRC.UPDN [d]` -/
def crcUpdnRequests (d : List Byte) : List Instr := d.map Instr.crcUpd

/-- `CRC.BLOCK [d]` -/
def crcBlockRequests (d : List Byte) : List Instr := [.crcInit] ++ crcUpdnRequests d ++ [.crcGet]

/-- `CRC.VERIFY [d], v` -/
def crcVerifyRequests (d : List Byte) (v : Word) : List Instr := [.crcInit] ++ crcUpdnRequests d ++ [.crcCmp v]

/-- The moves by which an agent presents these items, one a step. -/
def presentAll (is : List Instr) : List Move := is.map (fun i => .present i.format (encode i))

end Sys2Proof.Machine
end

