-- ==== Sys2Proof/Safety.lean ====
section
/-! DEFINITION. What counts as a safe run: the invariant of 10_state.md R38, a step that does not stop,
and a run of several steps. -/

namespace Sys2Proof.Machine

/-- The state between two steps (10_state.md R38). Two clauses are wider than the rule's so that the step keeps them:
`explen ≤ RXBUF_CAP` also in `SEARCH`, where R38 (f) is silent and R26 says it, and `1 ≤ explen` (R20). -/
structure State.Inv (s : State) : Prop where
  /-- R7: `RXBUF_CAP` is at least 6 -/
  params : s.params.wf
  /-- R38 (a) -/
  search : s.rxphase = .search → s.params.dialect = .slip ∧ s.rxbuf.length ≤ 5
  /-- R38 (b) -/
  collect : s.rxphase = .collect → s.rxbuf.length < s.explen
  /-- R38 (b), under SLIP -/
  synced : s.rxphase = .collect → s.params.dialect = .slip →
    6 ≤ s.rxbuf.length ∧ syncMatch (s.rxbuf.take 6) = true
  /-- R38 (c) -/
  ok : s.status = .ok → s.rxphase = .idle ∧ s.rxbuf.length = s.explen
  /-- R38 (d) -/
  running : s.rxphase ≠ .idle → s.status = .none
  /-- R38 (e) -/
  hfEsc : s.params.dialect = .hf → s.esc = false
  /-- R38 (f) -/
  buffer : s.rxphase ≠ .search → s.rxbuf.length ≤ s.explen
  /-- R38 (f), in `SEARCH` -/
  searchLength : s.rxphase = .search → 5 < s.explen
  /-- R38 (f), R26 -/
  explenCap : s.explen ≤ s.params.rxbufCap
  /-- R20 -/
  explenPos : 1 ≤ s.explen
  /-- R38 (g) -/
  escErr : s.status = .escErr → s.params.dialect = .slip ∧ s.esc = false

/-- A step that does not stop. -/
def State.steps (s : State) : Prop := ∃ t, step s = .next t

/-- `k` steps, one after another, as far as each gives a next state. It is the host's `Core.run` of this machine
(Laws/Run.lean), with the state's type written as `State`. -/
def runFor : Nat → State → Host.Outcome State Fault Refusal
  | 0, s => .next s
  | k + 1, s =>
    match step s with
    | .next t => runFor k t
    | .fault r => .fault r
    | .refused r => .refused r

end Sys2Proof.Machine
end

