-- ==== Sys2Proof/Certificates/Slice0/Obligations.lean ====
section
/-! DEFINITION. The statements for the provers. Each docstring names the rule of spec/ it formalises. -/

open Sys2Proof Sys2Proof.Machine

/-! ### Words the statements share -/

namespace Sys2Proof.Claims

/-- The next step runs the instruction `i`: the move at the head of `sched` presents bytes that decode to it. -/
def runs (s : State) (i : Instr) : Prop :=
  ∃ f bytes rest, s.sched = .present f bytes :: rest ∧ decode f bytes = .ok i

/-- The next step is a reset of the block. -/
def resets (s : State) : Prop := ∃ q rest, s.sched = .reset q :: rest

/-- The next step is the block's turn. -/
def blocksTurn (s : State) : Prop := s.sched = [] ∨ ∃ rest, s.sched = .block :: rest

/-- The "Dialect" column of 30_encoding.md R72. -/
def opDialect : Instr → Option Dialect
  | .hfEncs _ _ | .hfEncl _ _ | .hfRx _ _ => some .hf
  | .slipEnc _ | .slipDec _ | .slipRx _ _ => some .slip
  | _ => none

/-- The table of ranges of 30_encoding.md R73. -/
def opInRange (p : Params) : Instr → Prop
  | .hfEncs _ q => q.length ≤ 254
  | .hfEncl _ q => q.length ≤ 65534
  | .hfRx n _ => 1 ≤ n ∧ n ≤ p.rxbufCap
  | .slipEnc q => q.length ≤ p.txpayMax
  | .slipDec f => f.length ≤ 2 * p.txpayMax + 2
  | .slipRx n _ => 6 ≤ n ∧ n ≤ p.rxbufCap
  | _ => True

/-- The ten codes of 30_encoding.md R72, with their operations. -/
def operationMap : List (Byte × Op) :=
  [(0x10, .crcInit), (0x11, .crcUpd), (0x12, .crcGet), (0x13, .crcCmp), (0x20, .hfEncs), (0x21, .hfEncl),
   (0x22, .hfRx), (0x30, .slipEnc), (0x31, .slipDec), (0x32, .slipRx)]

/-- The request is refused for the reason `r`, and nothing but the response changes (41_common.md R121). -/
def answersRefuse (i : Instr) (s : State) (r : RefuseReason) : Prop :=
  exec i s = .next { s with rsp := s.rsp ++ [.refuse r] }

/-- A request of an operation with dialect `d` is refused while the block is busy, and by an instance of the other
dialect. -/
def busyOrWrongDialect (i : Instr) (s : State) (d : Dialect) : Prop :=
  (s.rxphase ≠ .idle → answersRefuse i s .busy) ∧
  (s.rxphase = .idle → s.params.dialect ≠ d → answersRefuse i s .wrongDialect)

/-- The state `finish(code)` leaves (41_common.md R126). -/
def finished (s : State) (code : Status) : State :=
  { s with
    rxbuf := if s.rxphase = .search then [] else s.rxbuf
    status := code
    rxphase := .idle
    rsp := s.rsp ++ [.done code (if s.rxphase = .search then [] else s.rxbuf)] }

/-- The responses among `rs` that end a receive operation. -/
def dones (rs : List Response) : List Response :=
  rs.filter (fun r => match r with | .done _ _ => true | _ => false)

/-- The bytes of `p` that SLIP doubles (43_slip.md R161). -/
def doubled (p : List Byte) : Nat := p.countP (fun b => b = 0xC0 || b = 0xDB)

/-- De-stuffing of a whole raw sequence from the escape flag `e`: the bytes it gives and the flag it leaves, or nothing
where it raises an error (43_slip.md R164). -/
def destuff (e : Bool) : List Byte → Option (List Byte × Bool)
  | [] => some ([], e)
  | b :: rest =>
    match unstuff e b with
    | (_, .error) => none
    | (e', .nothing) => destuff e' rest
    | (e', .byte d) => (destuff e' rest).map (fun r => (d :: r.1, r.2))

/-- The answer of `hf_parse` seen as an instruction of the table's wire rows. -/
def hfFrameInstr : HfFrame → Instr
  | .short opc p => .hfShort opc p
  | .long opc p => .hfLong opc p

end Sys2Proof.Claims

open Sys2Proof.Claims

/-! ### Reset, invariant and the step -/

/-- R230, R232, R35: `RESET` puts every register at its reset value, gives no response, ignores a request in the same step,
and touches no stream, no level and no parameter. -/
def Obligations.ResetMoveGivesResetRegisters : Prop :=
  ∀ (s : State) (q : Option (List Byte)) (rest : List Move), s.sched = .reset q :: rest →
    step s = .next { s with
      crc := s.params.crcInit
      crcMatch := false
      rxphase := .idle
      esc := false
      rxbuf := []
      explen := 1
      status := .none
      sched := rest }

/-- R35 at power-up, for every choice of the parameters; and at the defaults `CRC.GET` then answers `0x00000000` (R106). The
contents of the streams at power-up are the model's choice (log 12) and are not stated. -/
def Obligations.PowerUpRegistersAndEmptyCrc : Prop :=
  (∀ p : Params, (State.powerUp p).crc = p.crcInit ∧ (State.powerUp p).crcMatch = false ∧
    (State.powerUp p).rxphase = .idle ∧ (State.powerUp p).esc = false ∧ (State.powerUp p).rxbuf = [] ∧
    (State.powerUp p).explen = 1 ∧ (State.powerUp p).status = .none ∧ (State.powerUp p).params = p) ∧
  State.reset = State.powerUp Params.default ∧ State.reset.crc = 0xFFFFFFFF ∧
  exec .crcGet State.reset =
    .next { State.reset with rsp := State.reset.rsp ++ [.accept (.word 0x00000000)] }

/-- R38 holds of an instance that comes to exist, at every legal choice of the parameters. -/
def Obligations.InvariantHoldsAtPowerUp : Prop :=
  (∀ p : Params, p.wf → (State.powerUp p).Inv) ∧ State.reset.Inv

/-- R38: every step keeps the invariant, whatever move is made and whatever bytes arrive. -/
def Obligations.EveryStepKeepsInvariant : Prop :=
  ∀ s t : State, s.Inv → step s = .next t → t.Inv

/-- R70: a step whose move presents bytes that decode to `i` is `exec i`, with the move taken off `sched`. That the agents' moves
stand in `sched` is the model's choice (log 3). -/
def Obligations.StepRunsDecodedInstruction : Prop :=
  ∀ (s : State) (f : Format) (bytes : List Byte) (rest : List Move) (i : Instr),
    s.sched = .present f bytes :: rest → decode f bytes = .ok i →
      step s = exec i { s with sched := rest }

/-- No instruction stops the machine (R11, R200); and a step stops only where a move carries bytes that are no whole item of
its format (log 6), an illegal `op` not among them. -/
def Obligations.StepStopsOnlyOnMalformedItems : Prop :=
  (∀ (i : Instr) (s : State), ∃ t, exec i s = .next t) ∧
  (∀ (s : State) (r : Fault), step s ≠ .fault r) ∧
  (∀ (s : State) (r : Refusal), step s = .refused r →
    ∃ f bytes rest e, s.sched = .present f bytes :: rest ∧ decode f bytes = .error e ∧ r = .malformed e ∧
      ∀ b, e ≠ .badOp b)

/-- What the moves of the host and the transport do (R217), `TMO` and `RESET` apart. The moves as data are the model's choice
(log 3). -/
def Obligations.EnvironmentMovesTouchOnlyTheirPort : Prop :=
  ∀ (s : State) (rest : List Move),
    (∀ d, s.sched = .rx d :: rest → step s = .next { s with rxs := s.rxs ++ d, sched := rest }) ∧
    (∀ n, s.sched = .txTake n :: rest → step s = .next { s with txs := s.txs.drop n, sched := rest }) ∧
    (∀ b, s.sched = .cancel b :: rest → step s = .next { s with cancel := b, sched := rest })

/-- R233: "After reset it does nothing until a request comes": an idle block whose turn it is does nothing. And an empty
schedule is the block's turn (log 4). -/
def Obligations.IdleBlockDoesNothing : Prop :=
  (∀ s : State, s.sched = [] → step s = step { s with sched := [.block] }) ∧
  (∀ (s : State) (rest : List Move), s.rxphase = .idle → s.sched = .block :: rest →
    step s = .next { s with sched := rest })

/-- The parameters of an instance never change (R34, R211, R217). -/
def Obligations.NoStepChangesParameters : Prop :=
  ∀ s t : State, step s = .next t → t.params = s.params

/-! ### Encodings -/

/-- R72, R80: the operation map is exactly the ten codes, and every other value is illegal. -/
def Obligations.OperationMapIsTheTenCodes : Prop :=
  (∀ (b : Byte) (o : Op), opOf b = some o ↔ (b, o) ∈ operationMap) ∧
  opRows.map OpRow.mnemonic =
    ["CRC.INIT", "CRC.UPD", "CRC.GET", "CRC.CMP", "HF.ENCS", "HF.ENCL", "HF.RX", "SLIP.ENC", "SLIP.DEC", "SLIP.RX"] ∧
  opRows.map OpRow.dialect =
    [none, none, none, none, some .hf, some .hf, some .hf, some .slip, some .slip, some .slip]

/-- Words written out from the spec's encodings: R71's own example, the request bytes of the programs P1 to P5, and one
pattern for each wire row of R74, R75, R77, R78, R79. -/
def Obligations.WrittenOutWordsDecode : Prop :=
  decode .req [0x10] = .ok .crcInit ∧
  decode .req [0x11, 0x31] = .ok (.crcUpd 0x31) ∧
  decode .req [0x12] = .ok .crcGet ∧
  decode .req [0x13, 0x26, 0x39, 0xF4, 0xCB] = .ok (.crcCmp 0xCBF43926) ∧
  decode .req [0x20, 0x0F, 0x02, 0x00, 0x00, 0x00, 0x00, 0xC2] = .ok (.hfEncs 0x0F [0x00, 0xC2]) ∧
  decode .req [0x21, 0x09, 0x04, 0x00, 0x00, 0x00, 0x00, 0x10, 0x00, 0x00] =
    .ok (.hfEncl 0x09 [0x00, 0x10, 0x00, 0x00]) ∧
  decode .req [0x22, 0x08, 0x00, 0x00, 0x00, 0x64, 0x00, 0x00, 0x00] = .ok (.hfRx 8 100) ∧
  decode .req [0x30, 0x01, 0x00, 0x00, 0x00, 0x01] = .ok (.slipEnc [0x01]) ∧
  decode .req [0x31, 0x02, 0x00, 0x00, 0x00, 0xC0, 0xC0] = .ok (.slipDec [0xC0, 0xC0]) ∧
  decode .req [0x32, 0x0A, 0x00, 0x00, 0x00, 0x00, 0x00, 0x00, 0x00] = .ok (.slipRx 10 0) ∧
  decode .req [0x99] = .error (.badOp 0x99) ∧
  decode .hf [0x01, 0xE0, 0xFC, 0x06, 0x0F, 0x00, 0xC2, 0x01, 0x00, 0x14] =
    .ok (.hfShort 0x0F [0x00, 0xC2, 0x01, 0x00, 0x14]) ∧
  decode .hf [0x01, 0xE0, 0xFC, 0xFF, 0xF4, 0x05, 0x00, 0x09, 0x00, 0x10, 0x00, 0x00] =
    .ok (.hfLong 0x09 [0x00, 0x10, 0x00, 0x00]) ∧
  decode .slipSym [0xC0] = .ok .slipEnd ∧
  decode .slipSym [0xDB, 0xDC] = .ok .slipEscEnd ∧
  decode .slipSym [0xDB, 0xDD] = .ok .slipEscEsc ∧
  decode .slipSym [0xDC] = .ok (.slipLiteral 0xDC) ∧
  decode .slipFrame [0xC0, 0x01, 0xDB, 0xDC, 0x02, 0xDB, 0xDD, 0x03, 0xC0] =
    .ok (.slipFrame [0x01, 0xC0, 0x02, 0xDB, 0x03]) ∧
  decode .sync [0x04, 0x0E, 0x05, 0x01, 0xE0, 0xFC] = .ok (.slipSync 0x05)

/-- R71, R72, R74, R75, R77 to R79: decoding an encoded well-formed instruction gives it back, for every row of the table and
every operand; a short frame with opcode `F4` and 254 payload bytes reads as a long one (R137) and is apart. A request is
also read off the front of a longer byte sequence, which is left over. -/
def Obligations.DecodeOfEncodeIsIdentity : Prop :=
  (∀ i : Instr, i.wellFormed = true → (∀ p, i = .hfShort 0xF4 p → p.length ≠ 254) →
    decode i.format (encode i) = .ok i) ∧
  (∀ (i : Instr) (rest : List Byte), i.wellFormed = true → i.format = .req →
    decodeRequest (encode i ++ rest) = .ok (i, rest))

/-- The other direction: what decodes to `i` in a format is `i`'s own encoding, and `i` is a well-formed instruction of that
format. So no two byte sequences of a format mean the same instruction, and no bit is dropped. -/
def Obligations.DecodedBytesAreTheEncoding : Prop :=
  ∀ (f : Format) (bytes : List Byte) (i : Instr), decode f bytes = .ok i →
    i.format = f ∧ i.wellFormed = true ∧ encode i = bytes

/-- R82: a request's length follows from its `op` and its length field. -/
def Obligations.RequestLengthFollowsFromItsFront : Prop :=
  ∀ (i : Instr) (rest : List Byte), i.wellFormed = true → i.format = .req →
    requestSize (encode i ++ rest) = (encode i).length

/-- R85 and R27: the numbers of the response values. -/
def Obligations.ResponseCodesAreTheListedNumbers : Prop :=
  [RefuseReason.busy, .badOp, .wrongDialect, .range].map RefuseReason.code = [1, 2, 3, 4] ∧
  [DecFail.noDelim, .innerEnd, .escErr].map DecFail.code = [1, 2, 3] ∧
  [Status.none, .ok, .timeout, .cancelled, .escErr].map Status.code = [0, 1, 2, 3, 4]

/-- R31: the fields of the `STATUS` view. -/
def Obligations.StatusViewHoldsItsFields : Prop :=
  ∀ s : State,
    (s.statusView.extractLsb 1 0).toNat =
      (match s.rxphase with | .idle => 0 | .search => 1 | .collect => 2) ∧
    s.statusView.getLsbD 2 = s.esc ∧
    (s.statusView.extractLsb 5 3).toNat =
      (match s.status with | .none => 0 | .ok => 1 | .timeout => 2 | .cancelled => 3 | .escErr => 4) ∧
    s.statusView.getLsbD 6 = s.crcMatch ∧
    s.statusView.getLsbD 7 = decide (s.params.dialect = .slip)

/-! ### Taking a request -/

/-- R120 with R121 and R73: the four tests in their order, each refusal changing nothing but `RSP`, and a request that
passes them all answered `ACCEPT`. -/
def Obligations.AcceptanceTestOrder : Prop :=
  (∀ (i : Instr) (s : State), i.format = .req →
    (s.rxphase ≠ .idle → exec i s = .next { s with rsp := s.rsp ++ [.refuse .busy] }) ∧
    (s.rxphase = .idle → (∃ d, opDialect i = some d ∧ d ≠ s.params.dialect) →
      exec i s = .next { s with rsp := s.rsp ++ [.refuse .wrongDialect] }) ∧
    (s.rxphase = .idle → (∀ d, opDialect i = some d → d = s.params.dialect) → ¬ opInRange s.params i →
      exec i s = .next { s with rsp := s.rsp ++ [.refuse .range] }) ∧
    (s.rxphase = .idle → (∀ d, opDialect i = some d → d = s.params.dialect) → opInRange s.params i →
      ∃ t v, exec i s = .next t ∧ t.rsp = s.rsp ++ [.accept v])) ∧
  (∀ (s : State) (op : Byte) (more : List Byte) (rest : List Move), s.sched = .present .req (op :: more) :: rest →
    op ∉ operationMap.map Prod.fst →
    (s.rxphase ≠ .idle → step s = .next { s with rsp := s.rsp ++ [.refuse .busy], sched := rest }) ∧
    (s.rxphase = .idle → step s = .next { s with rsp := s.rsp ++ [.refuse .badOp], sched := rest }))

/-- R121: whatever the step, if its response is a refusal then nothing else changed. -/
def Obligations.RefusalChangesNothingElse : Prop :=
  ∀ (s t : State) (r : RefuseReason), step s = .next t → t.rsp = s.rsp ++ [.refuse r] →
    t = { s with rsp := s.rsp ++ [.refuse r], sched := s.sched.tail }

/-- R123: a request does not read `CANCEL`; the single-step operations leave `rxphase` as it is. -/
def Obligations.RequestsDoNotReadCancel : Prop :=
  ∀ (i : Instr) (s t : State) (c : Bool), i.format = .req → exec i s = .next t →
    exec i { s with cancel := c } = .next { t with cancel := c } ∧
    ((∀ n tmo, i ≠ .hfRx n tmo ∧ i ≠ .slipRx n tmo) → t.rxphase = s.rxphase)

/-- R28: which steps write which register. -/
def Obligations.RegistersAreWrittenOnlyByTheirOperations : Prop :=
  ∀ s t : State, step s = .next t →
    (t.crc ≠ s.crc → resets s ∨ (s.rxphase = .idle ∧ (runs s .crcInit ∨ ∃ b, runs s (.crcUpd b)))) ∧
    (t.crcMatch ≠ s.crcMatch → resets s ∨ (s.rxphase = .idle ∧ ∃ v, runs s (.crcCmp v))) ∧
    (t.esc ≠ s.esc → resets s ∨ (blocksTurn s ∧ s.rxphase ≠ .idle ∧ s.params.dialect = .slip ∧
      s.cancel = false ∧ ∃ b, s.rxs = b :: t.rxs)) ∧
    (t.explen ≠ s.explen → resets s ∨ (s.rxphase = .idle ∧ ∃ n tmo, runs s (.hfRx n tmo) ∨ runs s (.slipRx n tmo))) ∧
    (t.rxbuf ≠ s.rxbuf → resets s ∨ s.rxphase ≠ .idle ∨ ∃ n tmo, runs s (.hfRx n tmo) ∨ runs s (.slipRx n tmo)) ∧
    (t.status ≠ s.status → resets s ∨ (s.rxphase ≠ .idle ∧ t.rxphase = .idle) ∨
      (s.rxphase = .idle ∧ t.status = .none ∧ ∃ n tmo, runs s (.hfRx n tmo) ∨ runs s (.slipRx n tmo)))

/-- R23: the codes of `rxphase`, and its transitions: nothing else changes it. -/
def Obligations.PhaseTransitionsAreTheListedOnes : Prop :=
  (RxPhase.idle.code = 0 ∧ RxPhase.search.code = 1 ∧ RxPhase.collect.code = 2) ∧
  (∀ s t : State, step s = .next t → t.rxphase ≠ s.rxphase →
    (resets s ∧ t.rxphase = .idle) ∨
    (s.rxphase = .idle ∧ t.rxphase = .collect ∧ ∃ n tmo, runs s (.hfRx n tmo)) ∨
    (s.rxphase = .idle ∧ t.rxphase = .search ∧ ∃ n tmo, runs s (.slipRx n tmo)) ∨
    (s.rxphase = .search ∧ t.rxphase = .collect ∧ syncMatch t.rxbuf = true) ∨
    (s.rxphase ≠ .idle ∧ t.rxphase = .idle ∧ t.rsp = s.rsp ++ [.done t.status t.rxbuf]))

/-- R124: a running operation that ends, other than by `RESET`, answers one `DONE` with its status and its bytes; no other
step answers a `DONE`. -/
def Obligations.OneDoneForEachReceiveThatEnds : Prop :=
  ∀ s t : State, step s = .next t →
    ((s.rxphase ≠ .idle ∧ t.rxphase = .idle ∧ ¬ resets s) → t.rsp = s.rsp ++ [.done t.status t.rxbuf]) ∧
    (¬ (s.rxphase ≠ .idle ∧ t.rxphase = .idle ∧ ¬ resets s) → dones t.rsp = dones s.rsp)

/-- R58, R127: `RXS` is first in, first out: a step leaves it, takes its head byte for a running operation, or appends at
its tail. -/
def Obligations.ReceiveStreamIsFirstInFirstOut : Prop :=
  ∀ s t : State, step s = .next t →
    t.rxs = s.rxs ∨ (∃ d, t.rxs = s.rxs ++ d) ∨
    (∃ b, s.rxs = b :: t.rxs ∧ s.rxphase ≠ .idle ∧ s.cancel = false ∧ blocksTurn s)

/-- R58, R123: `TXS` grows by whole frames, each also the answer of its request, and shrinks only at its head by the
transport's move. -/
def Obligations.TransmitStreamGrowsByWholeFrames : Prop :=
  ∀ s t : State, step s = .next t →
    t.txs = s.txs ∨
    (∃ d, t.txs = s.txs ++ d ∧ t.rsp = s.rsp ++ [.accept (.frame d)] ∧
      ((∃ opc p, (runs s (.hfEncs opc p) ∧ d = hfShortFrame opc p) ∨ (runs s (.hfEncl opc p) ∧ d = hfLongFrame opc p)) ∨
        ∃ p, runs s (.slipEnc p) ∧ d = slipEncFrame p)) ∨
    (∃ n rest, s.sched = .txTake n :: rest ∧ t.txs = s.txs.drop n)

/-- R71 (`tmo` is "opaque to the block: no rule reads it"): what was passed to the timer never shows in a step. -/
def Obligations.NoStepReadsTheTimeout : Prop :=
  (∀ (s t : State) (v : Option Nat), step s = .next t →
    ∃ w, step { s with timer := v } = .next { t with timer := w }) ∧
  (∀ (s t : State) (n tmo tmo' : Nat),
    (exec (.hfRx n tmo) s = .next t → ∃ w, exec (.hfRx n tmo') s = .next { t with timer := w }) ∧
    (exec (.slipRx n tmo) s = .next t → ∃ w, exec (.slipRx n tmo') s = .next { t with timer := w }))

/-! ### The CRC engine -/

/-- R104, its one refusal included. -/
def Obligations.CrcInitLoadsTheInitialValue : Prop :=
  ∀ s : State,
    (s.rxphase = .idle →
      exec .crcInit s = .next { s with crc := s.params.crcInit, rsp := s.rsp ++ [.accept .unit] }) ∧
    (s.rxphase ≠ .idle → answersRefuse .crcInit s .busy)

/-- R105, with `crc_step` of R103 written out, its one refusal included. -/
def Obligations.CrcUpdUpdatesByTable : Prop :=
  ∀ (s : State) (b : Byte),
    (s.rxphase = .idle →
      exec (.crcUpd b) s = .next { s with
        crc := crcTable ((s.crc ^^^ b.setWidth 32).extractLsb' 0 8) ^^^ (s.crc >>> 8)
        rsp := s.rsp ++ [.accept .unit] }) ∧
    (s.rxphase ≠ .idle → answersRefuse (.crcUpd b) s .busy)

/-- R106, its one refusal included. -/
def Obligations.CrcGetAnswersFinalisedCrc : Prop :=
  ∀ s : State,
    (s.rxphase = .idle →
      exec .crcGet s = .next { s with rsp := s.rsp ++ [.accept (.word (s.crc ^^^ s.params.crcXorout))] }) ∧
    (s.rxphase ≠ .idle → answersRefuse .crcGet s .busy)

/-- R107, its one refusal included. -/
def Obligations.CrcCmpWritesAndAnswersTheMatch : Prop :=
  ∀ (s : State) (v : Word),
    (s.rxphase = .idle → (s.crc ^^^ s.params.crcXorout) = v →
      exec (.crcCmp v) s = .next { s with crcMatch := true, rsp := s.rsp ++ [.accept (.bit true)] }) ∧
    (s.rxphase = .idle → (s.crc ^^^ s.params.crcXorout) ≠ v →
      exec (.crcCmp v) s = .next { s with crcMatch := false, rsp := s.rsp ++ [.accept (.bit false)] }) ∧
    (s.rxphase ≠ .idle → answersRefuse (.crcCmp v) s .busy)

/-- R102: the listing of the table agrees with the generation of R101 at every index. -/
def Obligations.CrcListingAgreesWithGeneration : Prop :=
  crcListing.length = 256 ∧ ∀ i : Byte, crcListing[i.toNat]? = some (crcTable i)

/-- R109: the table-driven update is the bit-serial one, for all arguments. -/
def Obligations.CrcStepIsBitSerial : Prop :=
  ∀ (c : Word) (b : Byte), crcStep c b = crcShifts 8 (c ^^^ b.setWidth 32)

/-- R111 (d): a message followed by its own CRC, low byte first, leaves the residue, whatever the message and the initial
value, where the final exclusive-or is `0xFFFFFFFF`. -/
def Obligations.CrcResidueIsConstant : Prop :=
  ∀ (p : Params) (d : List Byte), p.crcXorout = 0xFFFFFFFF →
    crcAcc p (d ++ le32Bytes (crc32 p d).toNat) = 0xDEBB20E3 ∧
    crc32 p (d ++ le32Bytes (crc32 p d).toNat) = 0x2144DF1C

/-- R84 with R108: the pseudo-operations run as their requests, one a step, on an idle block, and leave and answer what R84
says. -/
def Obligations.PseudoOperationsRunAsTheirRequests : Prop :=
  ∀ (s : State) (d : List Byte) (rest : List Move), s.rxphase = .idle →
    (s.sched = presentAll (crcBlockRequests d) ++ rest →
      runFor (d.length + 2) s = .next { s with
        crc := crcAcc s.params d
        rsp := s.rsp ++ List.replicate (d.length + 1) (.accept .unit) ++ [.accept (.word (crc32 s.params d))]
        sched := rest }) ∧
    (s.sched = presentAll (crcUpdnRequests d) ++ rest →
      runFor d.length s = .next { s with
        crc := crcFeed s.crc d
        rsp := s.rsp ++ List.replicate d.length (.accept .unit)
        sched := rest }) ∧
    (∀ v, s.sched = presentAll (crcVerifyRequests d v) ++ rest →
      runFor (d.length + 2) s = .next { s with
        crc := crcAcc s.params d
        crcMatch := decide (crc32 s.params d = v)
        rsp := s.rsp ++ List.replicate (d.length + 1) (.accept .unit) ++
          [.accept (.bit (decide (crc32 s.params d = v)))]
        sched := rest })

/-! ### The Header-Framed codec -/

/-- R131, with the frame of R74 written out, the refusals included. -/
def Obligations.HfEncsEmitsTheShortFrame : Prop :=
  ∀ (s : State) (opc : Byte) (p : List Byte),
    (s.rxphase = .idle → s.params.dialect = .hf → p.length ≤ 254 →
      exec (.hfEncs opc p) s = .next { s with
        txs := s.txs ++ ([0x01, 0xE0, 0xFC, BitVec.ofNat 8 (1 + p.length), opc] ++ p)
        rsp := s.rsp ++ [.accept (.frame ([0x01, 0xE0, 0xFC, BitVec.ofNat 8 (1 + p.length), opc] ++ p))] }) ∧
    busyOrWrongDialect (.hfEncs opc p) s .hf ∧
    (s.rxphase = .idle → s.params.dialect = .hf → 254 < p.length → answersRefuse (.hfEncs opc p) s .range)

/-- R132, with the frame of R75 written out: the length low byte first (R76); the refusals included. -/
def Obligations.HfEnclEmitsTheLongFrame : Prop :=
  ∀ (s : State) (opc : Byte) (p : List Byte),
    (s.rxphase = .idle → s.params.dialect = .hf → p.length ≤ 65534 →
      exec (.hfEncl opc p) s = .next { s with
        txs := s.txs ++ ([0x01, 0xE0, 0xFC, 0xFF, 0xF4, BitVec.ofNat 8 ((1 + p.length) % 256),
          BitVec.ofNat 8 ((1 + p.length) / 256), opc] ++ p)
        rsp := s.rsp ++ [.accept (.frame ([0x01, 0xE0, 0xFC, 0xFF, 0xF4, BitVec.ofNat 8 ((1 + p.length) % 256),
          BitVec.ofNat 8 ((1 + p.length) / 256), opc] ++ p))] }) ∧
    busyOrWrongDialect (.hfEncl opc p) s .hf ∧
    (s.rxphase = .idle → s.params.dialect = .hf → 65534 < p.length → answersRefuse (.hfEncl opc p) s .range)

/-- R133, the refusals included; that `tmo` is passed to the transport's timer is R125's. -/
def Obligations.HfRxStartsCollecting : Prop :=
  ∀ (s : State) (n tmo : Nat),
    (s.rxphase = .idle → s.params.dialect = .hf → 1 ≤ n → n ≤ s.params.rxbufCap →
      exec (.hfRx n tmo) s = .next { s with
        explen := n
        rxbuf := []
        status := .none
        rxphase := .collect
        timer := some tmo
        rsp := s.rsp ++ [.accept .unit] }) ∧
    busyOrWrongDialect (.hfRx n tmo) s .hf ∧
    (s.rxphase = .idle → s.params.dialect = .hf → ¬ (1 ≤ n ∧ n ≤ s.params.rxbufCap) →
      answersRefuse (.hfRx n tmo) s .range)

/-- R134: the byte step under `HF`, in the block's turn. -/
def Obligations.HfByteStepKeepsEveryByte : Prop :=
  ∀ (s : State) (b : Byte) (more : List Byte) (rest : List Move),
    s.params.dialect = .hf → s.rxphase = .collect → s.rxbuf.length < s.explen → s.cancel = false →
    s.rxs = b :: more → s.sched = .block :: rest →
    (s.rxbuf.length + 1 < s.explen →
      step s = .next { s with rxbuf := s.rxbuf ++ [b], rxs := more, sched := rest }) ∧
    (s.rxbuf.length + 1 = s.explen →
      step s = .next { s with
        rxbuf := s.rxbuf ++ [b]
        status := .ok
        rxphase := .idle
        rxs := more
        rsp := s.rsp ++ [.done .ok (s.rxbuf ++ [b])]
        sched := rest })

/-- R135: `HF.RX n` with `n` bytes in `RXS` and `CANCEL = 0` ends after `n` byte steps with exactly those bytes, in order and
uninterpreted, and leaves the rest in `RXS` (R127). That the block moves while `sched` is empty is the model's choice
(log 4). -/
def Obligations.HfReceiveDeliversTheFirstBytes : Prop :=
  ∀ (s : State) (n tmo : Nat) (d more : List Byte),
    s.rxphase = .idle → s.params.dialect = .hf → 1 ≤ n → n ≤ s.params.rxbufCap → fits32 n → fits32 tmo →
    s.cancel = false → d.length = n → s.rxs = d ++ more → s.sched = presentAll [.hfRx n tmo] →
    runFor (n + 1) s = .next { s with
      explen := n
      rxbuf := d
      status := .ok
      rxs := more
      timer := some tmo
      rsp := s.rsp ++ [.accept .unit, .done .ok d]
      sched := [] }

/-- R135, R250: `HF.RX n` that finds only `k < n` bytes before the transport offers `TMO` ends after `k` byte steps and one
more step with those `k` bytes, `k = 0` among them. `TMO` as a move of its own is the model's choice (log 13). -/
def Obligations.HfReceiveTimesOutUndersized : Prop :=
  ∀ (s : State) (n tmo : Nat) (d : List Byte),
    s.rxphase = .idle → s.params.dialect = .hf → n ≤ s.params.rxbufCap → fits32 n → fits32 tmo →
    s.cancel = false → d.length < n → s.rxs = d →
    s.sched = presentAll [.hfRx n tmo] ++ List.replicate d.length .block ++ [.tmo] →
    runFor (d.length + 2) s = .next { s with
      explen := n
      rxbuf := d
      status := .timeout
      rxs := []
      timer := some tmo
      rsp := s.rsp ++ [.accept .unit, .done .timeout d]
      sched := [] }

/-- R137: the parser undoes both encoders, but for the one short frame that begins like a long one, which it reads as a long
frame or not at all; and both encoders are injective on their own domain. -/
def Obligations.HfParseUndoesEncode : Prop :=
  (∀ (opc : Byte) (p : List Byte), p.length ≤ 65534 → hfParse (hfLongFrame opc p) = some (.long opc p)) ∧
  (∀ (opc : Byte) (p : List Byte), p.length ≤ 254 → ¬ (p.length = 254 ∧ opc = 0xF4) →
    hfParse (hfShortFrame opc p) = some (.short opc p)) ∧
  (∀ (a b c : Byte) (q : List Byte), (a :: b :: c :: q).length = 254 →
    hfParse (hfShortFrame 0xF4 (a :: b :: c :: q)) =
      if a.toNat + 256 * b.toNat = 252 then some (.long c q) else none) ∧
  (∀ (opc opc' : Byte) (p p' : List Byte), hfShortFrame opc p = hfShortFrame opc' p' → opc = opc' ∧ p = p') ∧
  (∀ (opc opc' : Byte) (p p' : List Byte), hfLongFrame opc p = hfLongFrame opc' p' → opc = opc' ∧ p = p')

/-- R136 and R82: what the parser accepts is a frame of R74 or R75, and R82's length of it is its length. -/
def Obligations.HfParseAcceptsOnlyFrames : Prop :=
  ∀ (s : List Byte) (fr : HfFrame), hfParse s = some fr →
    encode (hfFrameInstr fr) = s ∧ (hfFrameInstr fr).wellFormed = true ∧ hfFrameSize s = s.length

/-! ### The SLIP-Escaped codec -/

/-- R161. -/
def Obligations.StuffEscapesByteByByte : Prop :=
  stuff [] = [] ∧
  (∀ (b : Byte) (rest : List Byte), stuff (b :: rest) =
    (if b = 0xC0 then [0xDB, 0xDC] else if b = 0xDB then [0xDB, 0xDD] else [b]) ++ stuff rest) ∧
  (∀ p : List Byte, (0xC0 : Byte) ∉ stuff p ∧ (stuff p).length = p.length + doubled p)

/-- R162: the frame's shape and length, and where its delimiters are. -/
def Obligations.SlipFrameHasOnlyItsTwoDelimiters : Prop :=
  ∀ p : List Byte,
    slipEncFrame p = [0xC0] ++ stuff p ++ [0xC0] ∧
    (slipEncFrame p).length = 2 + p.length + doubled p ∧
    ∀ k : Nat, (slipEncFrame p)[k]? = some 0xC0 ↔ k = 0 ∨ k = (slipEncFrame p).length - 1

/-- R163, with the frame of R162 written out, the refusals included. -/
def Obligations.SlipEncEmitsTheStuffedFrame : Prop :=
  ∀ (s : State) (p : List Byte),
    (s.rxphase = .idle → s.params.dialect = .slip → p.length ≤ s.params.txpayMax →
      exec (.slipEnc p) s = .next { s with
        txs := s.txs ++ ([0xC0] ++ stuff p ++ [0xC0])
        rsp := s.rsp ++ [.accept (.frame ([0xC0] ++ stuff p ++ [0xC0]))] }) ∧
    busyOrWrongDialect (.slipEnc p) s .slip ∧
    (s.rxphase = .idle → s.params.dialect = .slip → s.params.txpayMax < p.length →
      answersRefuse (.slipEnc p) s .range)

/-- R165: the strict try-decode, case by case: it takes exactly the frames of R162; without delimiters it is `NO_DELIM`; and
in the scan the first failing byte decides. -/
def Obligations.SlipDecodeCaseByCase : Prop :=
  (∀ (f p : List Byte), slipDecFrame f = .ok p ↔ f = slipEncFrame p) ∧
  (∀ f : List Byte, slipDecFrame f = .error .noDelim ↔
    (f.length < 2 ∨ f.head? ≠ some 0xC0 ∨ f.getLast? ≠ some 0xC0)) ∧
  (∀ p rest : List Byte, slipDecFrame ([0xC0] ++ stuff p ++ [0xC0] ++ rest ++ [0xC0]) = .error .innerEnd) ∧
  (∀ (p rest : List Byte) (b : Byte), b ≠ 0xDC → b ≠ 0xDD →
    slipDecFrame ([0xC0] ++ stuff p ++ [0xDB, b] ++ rest ++ [0xC0]) = .error .escErr) ∧
  (∀ p : List Byte, slipDecFrame ([0xC0] ++ stuff p ++ [0xDB] ++ [0xC0]) = .error .escErr)

/-- R166: `SLIP.DEC` answers what the try-decode gives and writes nothing else; the refusals included. -/
def Obligations.SlipDecAnswersTheTryDecode : Prop :=
  ∀ (s : State) (f : List Byte),
    (s.rxphase = .idle → s.params.dialect = .slip → f.length ≤ 2 * s.params.txpayMax + 2 →
      (∀ p, slipDecFrame f = .ok p →
        exec (.slipDec f) s = .next { s with rsp := s.rsp ++ [.accept (.decoded p)] }) ∧
      (∀ r, slipDecFrame f = .error r →
        exec (.slipDec f) s = .next { s with rsp := s.rsp ++ [.accept (.decFail r)] })) ∧
    busyOrWrongDialect (.slipDec f) s .slip ∧
    (s.rxphase = .idle → s.params.dialect = .slip → 2 * s.params.txpayMax + 2 < f.length →
      answersRefuse (.slipDec f) s .range)

/-- R167 on the machine: an idle SLIP instance that encodes a payload within its limit and then decodes the frame it put on
`TXS` answers that payload; and `SLIP.DEC` answers `DECODED(p)` of no other frame. -/
def Obligations.SlipEncodeThenDecodeIsIdentity : Prop :=
  (∀ (s : State) (p : List Byte), s.rxphase = .idle → s.params.dialect = .slip → p.length ≤ s.params.txpayMax →
    ∃ frame t u,
      exec (.slipEnc p) s = .next t ∧ t.txs = s.txs ++ frame ∧
      exec (.slipDec frame) t = .next u ∧
      u = { t with rsp := s.rsp ++ [.accept (.frame frame), .accept (.decoded p)] }) ∧
  (∀ (s t : State) (f p : List Byte), exec (.slipDec f) s = .next t →
    t.rsp = s.rsp ++ [.accept (.decoded p)] → f = slipEncFrame p)

/-- R168, the refusals included; that `tmo` is passed to the transport's timer is R125's. -/
def Obligations.SlipRxStartsSearching : Prop :=
  ∀ (s : State) (n tmo : Nat),
    (s.rxphase = .idle → s.params.dialect = .slip → 6 ≤ n → n ≤ s.params.rxbufCap →
      exec (.slipRx n tmo) s = .next { s with
        explen := n
        rxbuf := []
        status := .none
        rxphase := .search
        timer := some tmo
        rsp := s.rsp ++ [.accept .unit] }) ∧
    busyOrWrongDialect (.slipRx n tmo) s .slip ∧
    (s.rxphase = .idle → s.params.dialect = .slip → ¬ (6 ≤ n ∧ n ≤ s.params.rxbufCap) →
      answersRefuse (.slipRx n tmo) s .range)

/-- R164 and R169: stage A, in the block's turn of a running `SLIP.RX`: a delimiter is dropped, an introducer is remembered, a
completed escape or a literal is delivered, a bad escape ends the operation with its byte consumed. -/
def Obligations.SlipByteStepDestuffs : Prop :=
  ∀ (s : State) (b : Byte) (more : List Byte) (rest : List Move),
    s.params.dialect = .slip → s.rxphase ≠ .idle → s.cancel = false → s.rxs = b :: more → s.sched = .block :: rest →
    (s.esc = false → b = 0xC0 → step s = .next { s with rxs := more, sched := rest }) ∧
    (s.esc = false → b = 0xDB → step s = .next { s with esc := true, rxs := more, sched := rest }) ∧
    (s.esc = false → b ≠ 0xC0 → b ≠ 0xDB →
      step s = .next (State.deliver { s with rxs := more, sched := rest } b)) ∧
    (s.esc = true → b = 0xDC →
      step s = .next (State.deliver { s with esc := false, rxs := more, sched := rest } 0xC0)) ∧
    (s.esc = true → b = 0xDD →
      step s = .next (State.deliver { s with esc := false, rxs := more, sched := rest } 0xDB)) ∧
    (s.esc = true → b ≠ 0xDC → b ≠ 0xDD →
      step s = .next (finished { s with esc := false, rxs := more, sched := rest } .escErr))

/-- R170: stage B, one de-stuffed byte: append, then the search test on six bytes, then the completion test. -/
def Obligations.DeliverSearchesThenCollects : Prop :=
  ∀ (s : State) (d : Byte),
    (s.rxphase = .search → s.rxbuf.length + 1 ≠ 6 → s.deliver d = { s with rxbuf := s.rxbuf ++ [d] }) ∧
    (s.rxphase = .search → s.rxbuf.length + 1 = 6 → syncMatch (s.rxbuf ++ [d]) = false →
      s.deliver d = { s with rxbuf := (s.rxbuf ++ [d]).drop 1 }) ∧
    (s.rxphase = .search → s.rxbuf.length + 1 = 6 → syncMatch (s.rxbuf ++ [d]) = true → s.explen ≠ 6 →
      s.deliver d = { s with rxbuf := s.rxbuf ++ [d], rxphase := .collect }) ∧
    (s.rxphase = .search → s.rxbuf.length + 1 = 6 → syncMatch (s.rxbuf ++ [d]) = true → s.explen = 6 →
      s.deliver d = { s with
        rxbuf := s.rxbuf ++ [d], rxphase := .idle, status := .ok, rsp := s.rsp ++ [.done .ok (s.rxbuf ++ [d])] }) ∧
    (s.rxphase = .collect → s.rxbuf.length + 1 ≠ s.explen → s.deliver d = { s with rxbuf := s.rxbuf ++ [d] }) ∧
    (s.rxphase = .collect → s.rxbuf.length + 1 = s.explen →
      s.deliver d = { s with
        rxbuf := s.rxbuf ++ [d], rxphase := .idle, status := .ok, rsp := s.rsp ++ [.done .ok (s.rxbuf ++ [d])] })

/-- R171 and R79: the pattern, position by position. -/
def Obligations.SyncMatchIsTheSixPositions : Prop :=
  ∀ w : List Byte, syncMatch w = true ↔ ∃ x, w = [0x04, 0x0E, x, 0x01, 0xE0, 0xFC]

/-- R173 (a), (b), (d): `SLIP.RX n` over a raw prefix `g`, a frame of `p` and whatever follows, all in `RXS`, with `esc = 0` and
`CANCEL = 0`: where `g` de-stuffs without error to `u` and leaves no escape open, and `u` followed by `p` has its first match
where `p` begins, the operation ends `OK` with the first `n` bytes of `p`, and everything after the raw bytes of those `n`
stays in `RXS`. With `g` empty it is the loop-back law. That the block moves while `sched` is empty is the model's choice
(log 4). -/
def Obligations.SlipReceiveFindsTheFrameBehindNoise : Prop :=
  ∀ (s : State) (n tmo : Nat) (g u p more : List Byte),
    s.rxphase = .idle → s.params.dialect = .slip → n ≤ s.params.rxbufCap → fits32 n → fits32 tmo →
    s.cancel = false → s.esc = false → 6 ≤ n → n ≤ p.length → syncMatch (p.take 6) = true →
    destuff false g = some (u, false) →
    (∀ k, k < u.length → syncMatch (((u ++ p).drop k).take 6) = false) →
    s.rxs = g ++ slipEncFrame p ++ more → s.sched = presentAll [.slipRx n tmo] →
    runFor (1 + g.length + 1 + (stuff (p.take n)).length) s = .next { s with
      explen := n
      rxbuf := p.take n
      status := .ok
      rxs := stuff (p.drop n) ++ [0xC0] ++ more
      timer := some tmo
      rsp := s.rsp ++ [.accept .unit, .done .ok (p.take n)]
      sched := [] }

/-! ### The receive step -/

/-- R125: the three arms in their order, the wait where none is enabled, and no receive step of an idle block. That a wait is a step
which changes nothing but `sched` (log 5), and `TMO` as a move of its own (log 13), are the model's choice. -/
def Obligations.ReceiveStepArmsInOrder : Prop :=
  ∀ (s : State) (rest : List Move),
    (s.rxphase ≠ .idle →
      (s.cancel = true → s.sched = .block :: rest →
        step s = .next (finished { s with sched := rest } .cancelled)) ∧
      (∀ b more, s.cancel = false → s.rxs = b :: more → s.sched = .block :: rest →
        step s = .next (State.consume { s with rxs := more, sched := rest } b)) ∧
      (s.cancel = false → s.rxs = [] → s.sched = .tmo :: rest →
        step s = .next (finished { s with sched := rest } .timeout)) ∧
      (s.cancel = false → s.rxs = [] → s.sched = .block :: rest → step s = .next { s with sched := rest })) ∧
    (s.rxphase = .idle → (s.sched = .block :: rest ∨ s.sched = .tmo :: rest) →
      step s = .next { s with sched := rest })

/-- R126: the end of a receive operation: what it writes, who ends with `OK` and with `ESC_ERR`, and how many bytes the result
has. -/
def Obligations.FinishWritesStatusPhaseAndDone : Prop :=
  (∀ (s : State) (code : Status),
    (s.rxphase = .search → s.finish code = { s with
      rxbuf := [], status := code, rxphase := .idle, rsp := s.rsp ++ [.done code []] }) ∧
    (s.rxphase ≠ .search → s.finish code = { s with
      status := code, rxphase := .idle, rsp := s.rsp ++ [.done code s.rxbuf] })) ∧
  (∀ s t : State, step s = .next t → s.rxphase ≠ .idle → t.rxphase = .idle → ¬ resets s →
    (t.status = .ok → ∃ b, s.rxs = b :: t.rxs) ∧
    (t.status = .escErr → s.params.dialect = .slip ∧ ∃ b, s.rxs = b :: t.rxs) ∧
    (s.Inv → t.status = .ok → t.rxbuf.length = t.explen) ∧
    (s.Inv → t.status ≠ .ok → t.rxbuf.length < t.explen))

/-- R206: `TMO` is taken only while a receive operation runs, `RXS` is empty and `CANCEL = 0`; at any other moment it is
ignored and not remembered. `TMO` as a move of its own is the model's choice (log 13). -/
def Obligations.TimeoutIsTakenOnlyWhileWaiting : Prop :=
  ∀ (s : State) (rest : List Move), s.sched = .tmo :: rest →
    ((s.rxphase ≠ .idle ∧ s.rxs = [] ∧ s.cancel = false) →
      step s = .next (finished { s with sched := rest } .timeout)) ∧
    (¬ (s.rxphase ≠ .idle ∧ s.rxs = [] ∧ s.cancel = false) → step s = .next { s with sched := rest })

/-- R205, R174 (f): a receive operation accepted with `CANCEL = 1` ends at its first step, in either dialect, with no byte
taken, whatever waits in `RXS`. That the block moves while `sched` is empty is the model's choice (log 4). -/
def Obligations.CancelledReceiveEndsAtItsFirstStep : Prop :=
  ∀ (s : State) (n tmo : Nat) (i : Instr),
    ((i = .hfRx n tmo ∧ s.params.dialect = .hf ∧ 1 ≤ n) ∨ (i = .slipRx n tmo ∧ s.params.dialect = .slip ∧ 6 ≤ n)) →
    s.rxphase = .idle → n ≤ s.params.rxbufCap → fits32 n → fits32 tmo → s.cancel = true →
    s.sched = presentAll [i] →
    runFor 2 s = .next { s with
      explen := n
      rxbuf := []
      status := .cancelled
      timer := some tmo
      rsp := s.rsp ++ [.accept .unit, .done .cancelled []]
      sched := [] }

/-! ### The wire rows -/

/-- R74, R75 on the receive wire: the frame's bytes arrive at the tail of `RXS` and nothing else changes. That a wire row's
effect is its arrival is the model's choice (log 7). -/
def Obligations.HfFrameArrivesOnTheReceiveStream : Prop :=
  ∀ (s : State) (opc : Byte) (p : List Byte),
    (p.length ≤ 254 → exec (.hfShort opc p) s =
      .next { s with rxs := s.rxs ++ ([0x01, 0xE0, 0xFC, BitVec.ofNat 8 (1 + p.length), opc] ++ p) }) ∧
    (p.length ≤ 65534 → exec (.hfLong opc p) s =
      .next { s with rxs := s.rxs ++ ([0x01, 0xE0, 0xFC, 0xFF, 0xF4, BitVec.ofNat 8 ((1 + p.length) % 256),
        BitVec.ofNat 8 ((1 + p.length) / 256), opc] ++ p) })

/-- R77, R78, R79 on the receive wire: the pattern's raw bytes arrive at the tail of `RXS` and nothing else changes. That a
wire row's effect is its arrival, and that the sync pattern arrives stuffed, is the model's choice (logs 7, 8). -/
def Obligations.SlipPatternsArriveOnTheReceiveStream : Prop :=
  ∀ s : State,
    exec .slipEnd s = .next { s with rxs := s.rxs ++ [0xC0] } ∧
    exec .slipEscEnd s = .next { s with rxs := s.rxs ++ [0xDB, 0xDC] } ∧
    exec .slipEscEsc s = .next { s with rxs := s.rxs ++ [0xDB, 0xDD] } ∧
    (∀ b, b ≠ 0xC0 → b ≠ 0xDB → exec (.slipLiteral b) s = .next { s with rxs := s.rxs ++ [b] }) ∧
    (∀ p, exec (.slipFrame p) s = .next { s with rxs := s.rxs ++ ([0xC0] ++ stuff p ++ [0xC0]) }) ∧
    (∀ x, exec (.slipSync x) s = .next { s with
      rxs := s.rxs ++ ([0x04, 0x0E] ++ stuff [x] ++ [0x01, 0xE0, 0xFC]) })

/-- R77 with R169: the symbol that arrives for a running `SLIP.RX` stands for its byte: once taken off the wire it has
delivered `C0`, `DB` or itself, and a delimiter has delivered nothing. The arrival as the row's effect (log 7), and
that the block moves while `sched` is empty (log 4), are the model's choice. -/
def Obligations.SymbolsStandForTheirBytes : Prop :=
  ∀ s t : State, s.params.dialect = .slip → s.rxphase ≠ .idle → s.cancel = false → s.esc = false → s.rxs = [] →
    s.sched = [] →
    (exec .slipEscEnd s = .next t → runFor 2 t = .next (s.deliver 0xC0)) ∧
    (exec .slipEscEsc s = .next t → runFor 2 t = .next (s.deliver 0xDB)) ∧
    (∀ b, b ≠ 0xC0 → b ≠ 0xDB → exec (.slipLiteral b) s = .next t → runFor 1 t = .next (s.deliver b)) ∧
    (exec .slipEnd s = .next t → runFor 1 t = .next s)
end

