-- ==== Sys2Proof/Laws/Crc.lean ====
section
/-! SUPPORT. The CRC shift is linear over exclusive-or, and a value whose low bits are 0 only moves right
(40_crc32.md R101, R103). -/

namespace Sys2Proof.Machine

@[simp] theorem crcFeed_nil (c : Word) : crcFeed c [] = c := rfl

@[simp] theorem crcFeed_cons (c : Word) (b : Byte) (d : List Byte) : crcFeed c (b :: d) = crcFeed (crcStep c b) d := rfl

theorem crcFeed_append (c : Word) (d e : List Byte) : crcFeed c (d ++ e) = crcFeed (crcFeed c d) e := by
  simp [crcFeed, List.foldl_append]

theorem crcShift_xor (x y : Word) : crcShift (x ^^^ y) = crcShift x ^^^ crcShift y := by
  have h0 : (x ^^^ y).getLsbD 0 = (x.getLsbD 0 ^^ y.getLsbD 0) := BitVec.getLsbD_xor
  unfold crcShift
  rw [h0]
  ext i hi
  cases x.getLsbD 0 <;> cases y.getLsbD 0 <;> simp <;> grind

theorem crcShifts_xor (k : Nat) (x y : Word) : crcShifts k (x ^^^ y) = crcShifts k x ^^^ crcShifts k y := by
  induction k generalizing x y with
  | zero => rfl
  | succ k ih => simp [crcShifts, crcShift_xor, ih]

/-- Where the low `k` bits are 0, `k` shifts exclusive-or nothing in. -/
theorem crcShifts_low_zero (k : Nat) (x : Word) (h : ∀ j, j < k → x.getLsbD j = false) :
    crcShifts k x = x >>> k := by
  induction k generalizing x with
  | zero => simp [crcShifts]
  | succ k ih =>
    have h0 : x.getLsbD 0 = false := h 0 (Nat.succ_pos k)
    rw [crcShifts, crcShift, h0]
    simp only [Bool.false_eq_true, if_false]
    rw [ih _ (fun j hj => by simpa [Nat.add_comm] using h (j + 1) (by omega)), ← BitVec.shiftRight_add,
      Nat.add_comm]

end Sys2Proof.Machine
end

