-- ==== Sys2Proof/Laws/Wire.lean ====
section
/-! SUPPORT. Small lemmas of the wire functions. -/

namespace Sys2Proof.Machine

/-! ### SLIP symbols -/

@[simp] theorem stuff_nil : stuff [] = [] := rfl

@[simp] theorem stuff_cons (b : Byte) (p : List Byte) : stuff (b :: p) = slipSym b ++ stuff p := rfl

theorem stuff_append (p q : List Byte) : stuff (p ++ q) = stuff p ++ stuff q := by
  induction p with
  | nil => rfl
  | cons b p ih => simp [ih]

@[simp] theorem slipSym_end : slipSym slipEND = [slipESC, slipESCEND] := rfl

@[simp] theorem slipSym_esc : slipSym slipESC = [slipESC, slipESCESC] := rfl

theorem slipSym_literal {b : Byte} (h : b ≠ slipEND) (h' : b ≠ slipESC) : slipSym b = [b] := by
  simp [slipSym, h, h']

/-- The three kinds of payload byte. -/
theorem slipSym_cases (b : Byte) :
    (b = slipEND ∧ slipSym b = [slipESC, slipESCEND]) ∨ (b = slipESC ∧ slipSym b = [slipESC, slipESCESC]) ∨
    (b ≠ slipEND ∧ b ≠ slipESC ∧ slipSym b = [b]) := by
  by_cases h : b = slipEND
  · exact .inl ⟨h, by rw [h]; rfl⟩
  · by_cases h' : b = slipESC
    · exact .inr (.inl ⟨h', by rw [h']; rfl⟩)
    · exact .inr (.inr ⟨h, h', slipSym_literal h h'⟩)

/-! ### De-stuffing -/

@[simp] theorem unstuff_end : unstuff false slipEND = (false, .nothing) := rfl

@[simp] theorem unstuff_esc : unstuff false slipESC = (true, .nothing) := rfl

theorem unstuff_literal {b : Byte} (h : b ≠ slipEND) (h' : b ≠ slipESC) : unstuff false b = (false, .byte b) := by
  simp [unstuff, h, h']

@[simp] theorem unstuff_escEnd : unstuff true slipESCEND = (false, .byte slipEND) := rfl

@[simp] theorem unstuff_escEsc : unstuff true slipESCESC = (false, .byte slipESC) := rfl

theorem unstuff_bad {b : Byte} (h : b ≠ slipESCEND) (h' : b ≠ slipESCESC) : unstuff true b = (false, .error) := by
  simp [unstuff, h, h']

/-- All that de-stuffing one byte can give: only an introducer leaves the flag set. -/
theorem unstuff_cases (e : Bool) (b : Byte) :
    unstuff e b = (false, .error) ∨ (∃ d, unstuff e b = (false, .byte d)) ∨ ∃ e', unstuff e b = (e', .nothing) := by
  cases e
  · by_cases h : b = slipEND
    · exact .inr (.inr ⟨false, by rw [h]; rfl⟩)
    · by_cases h' : b = slipESC
      · exact .inr (.inr ⟨true, by rw [h']; rfl⟩)
      · exact .inr (.inl ⟨b, unstuff_literal h h'⟩)
  · by_cases h : b = slipESCEND
    · exact .inr (.inl ⟨slipEND, by rw [h]; rfl⟩)
    · by_cases h' : b = slipESCESC
      · exact .inr (.inl ⟨slipESC, by rw [h']; rfl⟩)
      · exact .inl (unstuff_bad h h')

/-- The scan of a symbol gives its byte. -/
theorem slipDecBody_sym (b : Byte) (rest : List Byte) :
    slipDecBody false (slipSym b ++ rest) =
      match slipDecBody false rest with
      | .ok out => .ok (b :: out)
      | .error r => .error r := by
  obtain ⟨rfl, h⟩ | ⟨rfl, h⟩ | ⟨h1, h2, h⟩ := slipSym_cases b
  · rw [h]; rfl
  · rw [h]; rfl
  · rw [h, List.singleton_append]
    cases hr : slipDecBody false rest <;> simp [slipDecBody, h1, unstuff_literal h1 h2, hr]

/-- The scan of escaped bytes gives the bytes, and goes on behind them. -/
theorem slipDecBody_stuff (p rest : List Byte) :
    slipDecBody false (stuff p ++ rest) =
      match slipDecBody false rest with
      | .ok out => .ok (p ++ out)
      | .error r => .error r := by
  induction p with
  | nil => simp; split <;> simp_all
  | cons b p ih =>
    rw [stuff_cons, List.append_assoc, slipDecBody_sym, ih]
    cases slipDecBody false rest <;> simp

/-- The try-decode of anything between two delimiters is the scan of what is between them. -/
theorem slipDecFrame_delimited (body : List Byte) :
    slipDecFrame (slipEND :: (body ++ [slipEND])) = slipDecBody false body := by
  have h : (slipEND :: (body ++ [slipEND])).getLast? = some slipEND := by
    rw [← List.cons_append]; exact List.getLast?_concat
  simp [slipDecFrame, h]

end Sys2Proof.Machine
end

