-- ==== Sys2Proof/Laws/Decode.lean ====
section
/-! SUPPORT. The operand readers undo the operand writers (30_encoding.md R71), and the operation map's small lemmas. -/

namespace Sys2Proof

open Sys2Proof.Machine

/-! ### Operands -/

theorem le32_le32Bytes {n : Nat} (h : fits32 n) :
    le32 (BitVec.ofNat 8 n) (BitVec.ofNat 8 (n / 256)) (BitVec.ofNat 8 (n / 65536)) (BitVec.ofNat 8 (n / 16777216)) =
      n := by
  have h : n < 4294967296 := h
  simp only [le32, BitVec.toNat_ofNat, Nat.reducePow]
  omega

theorem le32_lt (b0 b1 b2 b3 : Byte) : fits32 (le32 b0 b1 b2 b3) := by
  have h0 := b0.isLt
  have h1 := b1.isLt
  have h2 := b2.isLt
  have h3 := b3.isLt
  simp only [le32, fits32]
  omega

/-- The four bytes of the number four bytes make are those bytes. -/
theorem le32Bytes_le32 (b0 b1 b2 b3 : Byte) : le32Bytes (le32 b0 b1 b2 b3) = [b0, b1, b2, b3] := by
  have h0 := b0.isLt
  have h1 := b1.isLt
  have h2 := b2.isLt
  have h3 := b3.isLt
  simp only [le32Bytes, le32, List.cons.injEq, and_true]
  refine ⟨?_, ?_, ?_, ?_⟩ <;> apply BitVec.eq_of_toNat_eq <;> simp only [BitVec.toNat_ofNat] <;> omega

theorem takeLe32_le32Bytes {n : Nat} (h : fits32 n) (rest : List Byte) :
    takeLe32 (le32Bytes n ++ rest) = .ok (n, rest) := by
  simp [takeLe32, le32Bytes, le32_le32Bytes h]

theorem takeBytes_bytesOperand {p : List Byte} (h : fits32 p.length) (rest : List Byte) :
    takeBytes (bytesOperand p ++ rest) = .ok (p, rest) := by
  simp [takeBytes, bytesOperand, takeLe32_le32Bytes h, List.append_assoc]

theorem takeOpcodeBytes_bytesOperand {p : List Byte} (h : fits32 p.length) (opc : Byte) (rest : List Byte) :
    takeOpcodeBytes (opc :: (bytesOperand p ++ rest)) = .ok ((opc, p), rest) := by
  simp [takeOpcodeBytes, takeBytes_bytesOperand h]

theorem takeLengthTimeout_le32Bytes {n tmo : Nat} (hn : fits32 n) (ht : fits32 tmo) (rest : List Byte) :
    takeLengthTimeout (le32Bytes n ++ (le32Bytes tmo ++ rest)) = .ok ((n, tmo), rest) := by
  simp [takeLengthTimeout, takeLe32_le32Bytes hn, takeLe32_le32Bytes ht]

/-! ### The other direction -/

theorem takeLe32_ok {s rest : List Byte} {n : Nat} (h : takeLe32 s = .ok (n, rest)) :
    fits32 n ∧ s = le32Bytes n ++ rest := by
  match s with
  | [] | [_] | [_, _] | [_, _, _] => cases h
  | b0 :: b1 :: b2 :: b3 :: r =>
    simp only [takeLe32, Except.ok.injEq, Prod.mk.injEq] at h
    obtain ⟨rfl, rfl⟩ := h
    exact ⟨le32_lt b0 b1 b2 b3, by simp [le32Bytes_le32]⟩

theorem takeBytes_ok {s p rest : List Byte} (h : takeBytes s = .ok (p, rest)) :
    fits32 p.length ∧ s = bytesOperand p ++ rest := by
  unfold takeBytes at h
  split at h
  · cases h
  · next k r hk =>
    obtain ⟨hlt, rfl⟩ := takeLe32_ok hk
    split at h
    · cases h
    · next hr =>
      simp only [Except.ok.injEq, Prod.mk.injEq] at h
      obtain ⟨rfl, rfl⟩ := h
      have hlen : (r.take k).length = k := by simp; omega
      exact ⟨by rw [hlen]; exact hlt, by simp [bytesOperand, hlen]⟩

theorem takeOpcodeBytes_ok {s p rest : List Byte} {opc : Byte} (h : takeOpcodeBytes s = .ok ((opc, p), rest)) :
    fits32 p.length ∧ s = opc :: (bytesOperand p ++ rest) := by
  cases s with
  | nil => cases h
  | cons b s =>
    simp only [takeOpcodeBytes] at h
    split at h
    · cases h
    · next p' r hp =>
      simp only [Except.ok.injEq, Prod.mk.injEq] at h
      obtain ⟨⟨rfl, rfl⟩, rfl⟩ := h
      obtain ⟨hlt, rfl⟩ := takeBytes_ok hp
      exact ⟨hlt, rfl⟩

theorem takeLengthTimeout_ok {s rest : List Byte} {n tmo : Nat} (h : takeLengthTimeout s = .ok ((n, tmo), rest)) :
    fits32 n ∧ fits32 tmo ∧ s = le32Bytes n ++ (le32Bytes tmo ++ rest) := by
  unfold takeLengthTimeout at h
  split at h
  · cases h
  · next n' r hn =>
    obtain ⟨h1, rfl⟩ := takeLe32_ok hn
    split at h
    · cases h
    · next m r' hm =>
      simp only [Except.ok.injEq, Prod.mk.injEq] at h
      obtain ⟨⟨rfl, rfl⟩, rfl⟩ := h
      obtain ⟨h2, rfl⟩ := takeLe32_ok hm
      exact ⟨h1, h2, rfl⟩

/-! ### The operation map -/

/-- The code of an operation (30_encoding.md R72). -/
def opCode : Op → Byte
  | .crcInit => 0x10
  | .crcUpd => 0x11
  | .crcGet => 0x12
  | .crcCmp => 0x13
  | .hfEncs => 0x20
  | .hfEncl => 0x21
  | .hfRx => 0x22
  | .slipEnc => 0x30
  | .slipDec => 0x31
  | .slipRx => 0x32

theorem opOf_opCode (o : Op) : opOf (opCode o) = some o := by cases o <;> decide

/-- An `op` that names an operation is that operation's code. -/
theorem opOf_code {b : Byte} {o : Op} (h : opOf b = some o) : b = opCode o := by
  simp only [opOf, Option.map_eq_some_iff] at h
  obtain ⟨r, hr, rfl⟩ := h
  have hm : r ∈ opRows := List.mem_of_find?_eq_some hr
  have hc : r.code = b := by simpa using List.find?_some hr
  rw [← hc]
  revert r
  decide +revert

end Sys2Proof
end

