-- ==== Sys2Proof/Laws/State.lean ====
section
/-! SUPPORT. One lemma per field per named update of State, true by `rfl`. -/

namespace Sys2Proof.Machine

variable (s : State)

/-! `writeCrc` -/

@[simp] theorem writeCrc_params (v : Word) : (s.writeCrc v).params = s.params := rfl
@[simp] theorem writeCrc_crc (v : Word) : (s.writeCrc v).crc = v := rfl
@[simp] theorem writeCrc_crcMatch (v : Word) : (s.writeCrc v).crcMatch = s.crcMatch := rfl
@[simp] theorem writeCrc_rxphase (v : Word) : (s.writeCrc v).rxphase = s.rxphase := rfl
@[simp] theorem writeCrc_esc (v : Word) : (s.writeCrc v).esc = s.esc := rfl
@[simp] theorem writeCrc_rxbuf (v : Word) : (s.writeCrc v).rxbuf = s.rxbuf := rfl
@[simp] theorem writeCrc_explen (v : Word) : (s.writeCrc v).explen = s.explen := rfl
@[simp] theorem writeCrc_status (v : Word) : (s.writeCrc v).status = s.status := rfl
@[simp] theorem writeCrc_rxs (v : Word) : (s.writeCrc v).rxs = s.rxs := rfl
@[simp] theorem writeCrc_txs (v : Word) : (s.writeCrc v).txs = s.txs := rfl
@[simp] theorem writeCrc_cancel (v : Word) : (s.writeCrc v).cancel = s.cancel := rfl
@[simp] theorem writeCrc_timer (v : Word) : (s.writeCrc v).timer = s.timer := rfl
@[simp] theorem writeCrc_rsp (v : Word) : (s.writeCrc v).rsp = s.rsp := rfl
@[simp] theorem writeCrc_sched (v : Word) : (s.writeCrc v).sched = s.sched := rfl

/-! `writeCrcMatch` -/

@[simp] theorem writeCrcMatch_params (b : Bool) : (s.writeCrcMatch b).params = s.params := rfl
@[simp] theorem writeCrcMatch_crc (b : Bool) : (s.writeCrcMatch b).crc = s.crc := rfl
@[simp] theorem writeCrcMatch_crcMatch (b : Bool) : (s.writeCrcMatch b).crcMatch = b := rfl
@[simp] theorem writeCrcMatch_rxphase (b : Bool) : (s.writeCrcMatch b).rxphase = s.rxphase := rfl
@[simp] theorem writeCrcMatch_esc (b : Bool) : (s.writeCrcMatch b).esc = s.esc := rfl
@[simp] theorem writeCrcMatch_rxbuf (b : Bool) : (s.writeCrcMatch b).rxbuf = s.rxbuf := rfl
@[simp] theorem writeCrcMatch_explen (b : Bool) : (s.writeCrcMatch b).explen = s.explen := rfl
@[simp] theorem writeCrcMatch_status (b : Bool) : (s.writeCrcMatch b).status = s.status := rfl
@[simp] theorem writeCrcMatch_rxs (b : Bool) : (s.writeCrcMatch b).rxs = s.rxs := rfl
@[simp] theorem writeCrcMatch_txs (b : Bool) : (s.writeCrcMatch b).txs = s.txs := rfl
@[simp] theorem writeCrcMatch_cancel (b : Bool) : (s.writeCrcMatch b).cancel = s.cancel := rfl
@[simp] theorem writeCrcMatch_timer (b : Bool) : (s.writeCrcMatch b).timer = s.timer := rfl
@[simp] theorem writeCrcMatch_rsp (b : Bool) : (s.writeCrcMatch b).rsp = s.rsp := rfl
@[simp] theorem writeCrcMatch_sched (b : Bool) : (s.writeCrcMatch b).sched = s.sched := rfl

/-! `writePhase` -/

@[simp] theorem writePhase_params (p : RxPhase) : (s.writePhase p).params = s.params := rfl
@[simp] theorem writePhase_crc (p : RxPhase) : (s.writePhase p).crc = s.crc := rfl
@[simp] theorem writePhase_crcMatch (p : RxPhase) : (s.writePhase p).crcMatch = s.crcMatch := rfl
@[simp] theorem writePhase_rxphase (p : RxPhase) : (s.writePhase p).rxphase = p := rfl
@[simp] theorem writePhase_esc (p : RxPhase) : (s.writePhase p).esc = s.esc := rfl
@[simp] theorem writePhase_rxbuf (p : RxPhase) : (s.writePhase p).rxbuf = s.rxbuf := rfl
@[simp] theorem writePhase_explen (p : RxPhase) : (s.writePhase p).explen = s.explen := rfl
@[simp] theorem writePhase_status (p : RxPhase) : (s.writePhase p).status = s.status := rfl
@[simp] theorem writePhase_rxs (p : RxPhase) : (s.writePhase p).rxs = s.rxs := rfl
@[simp] theorem writePhase_txs (p : RxPhase) : (s.writePhase p).txs = s.txs := rfl
@[simp] theorem writePhase_cancel (p : RxPhase) : (s.writePhase p).cancel = s.cancel := rfl
@[simp] theorem writePhase_timer (p : RxPhase) : (s.writePhase p).timer = s.timer := rfl
@[simp] theorem writePhase_rsp (p : RxPhase) : (s.writePhase p).rsp = s.rsp := rfl
@[simp] theorem writePhase_sched (p : RxPhase) : (s.writePhase p).sched = s.sched := rfl

/-! `writeEsc` -/

@[simp] theorem writeEsc_params (b : Bool) : (s.writeEsc b).params = s.params := rfl
@[simp] theorem writeEsc_crc (b : Bool) : (s.writeEsc b).crc = s.crc := rfl
@[simp] theorem writeEsc_crcMatch (b : Bool) : (s.writeEsc b).crcMatch = s.crcMatch := rfl
@[simp] theorem writeEsc_rxphase (b : Bool) : (s.writeEsc b).rxphase = s.rxphase := rfl
@[simp] theorem writeEsc_esc (b : Bool) : (s.writeEsc b).esc = b := rfl
@[simp] theorem writeEsc_rxbuf (b : Bool) : (s.writeEsc b).rxbuf = s.rxbuf := rfl
@[simp] theorem writeEsc_explen (b : Bool) : (s.writeEsc b).explen = s.explen := rfl
@[simp] theorem writeEsc_status (b : Bool) : (s.writeEsc b).status = s.status := rfl
@[simp] theorem writeEsc_rxs (b : Bool) : (s.writeEsc b).rxs = s.rxs := rfl
@[simp] theorem writeEsc_txs (b : Bool) : (s.writeEsc b).txs = s.txs := rfl
@[simp] theorem writeEsc_cancel (b : Bool) : (s.writeEsc b).cancel = s.cancel := rfl
@[simp] theorem writeEsc_timer (b : Bool) : (s.writeEsc b).timer = s.timer := rfl
@[simp] theorem writeEsc_rsp (b : Bool) : (s.writeEsc b).rsp = s.rsp := rfl
@[simp] theorem writeEsc_sched (b : Bool) : (s.writeEsc b).sched = s.sched := rfl

/-! `writeRxbuf` -/

@[simp] theorem writeRxbuf_params (d : List Byte) : (s.writeRxbuf d).params = s.params := rfl
@[simp] theorem writeRxbuf_crc (d : List Byte) : (s.writeRxbuf d).crc = s.crc := rfl
@[simp] theorem writeRxbuf_crcMatch (d : List Byte) : (s.writeRxbuf d).crcMatch = s.crcMatch := rfl
@[simp] theorem writeRxbuf_rxphase (d : List Byte) : (s.writeRxbuf d).rxphase = s.rxphase := rfl
@[simp] theorem writeRxbuf_esc (d : List Byte) : (s.writeRxbuf d).esc = s.esc := rfl
@[simp] theorem writeRxbuf_rxbuf (d : List Byte) : (s.writeRxbuf d).rxbuf = d := rfl
@[simp] theorem writeRxbuf_explen (d : List Byte) : (s.writeRxbuf d).explen = s.explen := rfl
@[simp] theorem writeRxbuf_status (d : List Byte) : (s.writeRxbuf d).status = s.status := rfl
@[simp] theorem writeRxbuf_rxs (d : List Byte) : (s.writeRxbuf d).rxs = s.rxs := rfl
@[simp] theorem writeRxbuf_txs (d : List Byte) : (s.writeRxbuf d).txs = s.txs := rfl
@[simp] theorem writeRxbuf_cancel (d : List Byte) : (s.writeRxbuf d).cancel = s.cancel := rfl
@[simp] theorem writeRxbuf_timer (d : List Byte) : (s.writeRxbuf d).timer = s.timer := rfl
@[simp] theorem writeRxbuf_rsp (d : List Byte) : (s.writeRxbuf d).rsp = s.rsp := rfl
@[simp] theorem writeRxbuf_sched (d : List Byte) : (s.writeRxbuf d).sched = s.sched := rfl

/-! `writeExplen` -/

@[simp] theorem writeExplen_params (n : Nat) : (s.writeExplen n).params = s.params := rfl
@[simp] theorem writeExplen_crc (n : Nat) : (s.writeExplen n).crc = s.crc := rfl
@[simp] theorem writeExplen_crcMatch (n : Nat) : (s.writeExplen n).crcMatch = s.crcMatch := rfl
@[simp] theorem writeExplen_rxphase (n : Nat) : (s.writeExplen n).rxphase = s.rxphase := rfl
@[simp] theorem writeExplen_esc (n : Nat) : (s.writeExplen n).esc = s.esc := rfl
@[simp] theorem writeExplen_rxbuf (n : Nat) : (s.writeExplen n).rxbuf = s.rxbuf := rfl
@[simp] theorem writeExplen_explen (n : Nat) : (s.writeExplen n).explen = n := rfl
@[simp] theorem writeExplen_status (n : Nat) : (s.writeExplen n).status = s.status := rfl
@[simp] theorem writeExplen_rxs (n : Nat) : (s.writeExplen n).rxs = s.rxs := rfl
@[simp] theorem writeExplen_txs (n : Nat) : (s.writeExplen n).txs = s.txs := rfl
@[simp] theorem writeExplen_cancel (n : Nat) : (s.writeExplen n).cancel = s.cancel := rfl
@[simp] theorem writeExplen_timer (n : Nat) : (s.writeExplen n).timer = s.timer := rfl
@[simp] theorem writeExplen_rsp (n : Nat) : (s.writeExplen n).rsp = s.rsp := rfl
@[simp] theorem writeExplen_sched (n : Nat) : (s.writeExplen n).sched = s.sched := rfl

/-! `writeStatus` -/

@[simp] theorem writeStatus_params (c : Status) : (s.writeStatus c).params = s.params := rfl
@[simp] theorem writeStatus_crc (c : Status) : (s.writeStatus c).crc = s.crc := rfl
@[simp] theorem writeStatus_crcMatch (c : Status) : (s.writeStatus c).crcMatch = s.crcMatch := rfl
@[simp] theorem writeStatus_rxphase (c : Status) : (s.writeStatus c).rxphase = s.rxphase := rfl
@[simp] theorem writeStatus_esc (c : Status) : (s.writeStatus c).esc = s.esc := rfl
@[simp] theorem writeStatus_rxbuf (c : Status) : (s.writeStatus c).rxbuf = s.rxbuf := rfl
@[simp] theorem writeStatus_explen (c : Status) : (s.writeStatus c).explen = s.explen := rfl
@[simp] theorem writeStatus_status (c : Status) : (s.writeStatus c).status = c := rfl
@[simp] theorem writeStatus_rxs (c : Status) : (s.writeStatus c).rxs = s.rxs := rfl
@[simp] theorem writeStatus_txs (c : Status) : (s.writeStatus c).txs = s.txs := rfl
@[simp] theorem writeStatus_cancel (c : Status) : (s.writeStatus c).cancel = s.cancel := rfl
@[simp] theorem writeStatus_timer (c : Status) : (s.writeStatus c).timer = s.timer := rfl
@[simp] theorem writeStatus_rsp (c : Status) : (s.writeStatus c).rsp = s.rsp := rfl
@[simp] theorem writeStatus_sched (c : Status) : (s.writeStatus c).sched = s.sched := rfl

/-! `txsPush` -/

@[simp] theorem txsPush_params (d : List Byte) : (s.txsPush d).params = s.params := rfl
@[simp] theorem txsPush_crc (d : List Byte) : (s.txsPush d).crc = s.crc := rfl
@[simp] theorem txsPush_crcMatch (d : List Byte) : (s.txsPush d).crcMatch = s.crcMatch := rfl
@[simp] theorem txsPush_rxphase (d : List Byte) : (s.txsPush d).rxphase = s.rxphase := rfl
@[simp] theorem txsPush_esc (d : List Byte) : (s.txsPush d).esc = s.esc := rfl
@[simp] theorem txsPush_rxbuf (d : List Byte) : (s.txsPush d).rxbuf = s.rxbuf := rfl
@[simp] theorem txsPush_explen (d : List Byte) : (s.txsPush d).explen = s.explen := rfl
@[simp] theorem txsPush_status (d : List Byte) : (s.txsPush d).status = s.status := rfl
@[simp] theorem txsPush_rxs (d : List Byte) : (s.txsPush d).rxs = s.rxs := rfl
@[simp] theorem txsPush_txs (d : List Byte) : (s.txsPush d).txs = s.txs ++ d := rfl
@[simp] theorem txsPush_cancel (d : List Byte) : (s.txsPush d).cancel = s.cancel := rfl
@[simp] theorem txsPush_timer (d : List Byte) : (s.txsPush d).timer = s.timer := rfl
@[simp] theorem txsPush_rsp (d : List Byte) : (s.txsPush d).rsp = s.rsp := rfl
@[simp] theorem txsPush_sched (d : List Byte) : (s.txsPush d).sched = s.sched := rfl

/-! `rxsAppend` -/

@[simp] theorem rxsAppend_params (d : List Byte) : (s.rxsAppend d).params = s.params := rfl
@[simp] theorem rxsAppend_crc (d : List Byte) : (s.rxsAppend d).crc = s.crc := rfl
@[simp] theorem rxsAppend_crcMatch (d : List Byte) : (s.rxsAppend d).crcMatch = s.crcMatch := rfl
@[simp] theorem rxsAppend_rxphase (d : List Byte) : (s.rxsAppend d).rxphase = s.rxphase := rfl
@[simp] theorem rxsAppend_esc (d : List Byte) : (s.rxsAppend d).esc = s.esc := rfl
@[simp] theorem rxsAppend_rxbuf (d : List Byte) : (s.rxsAppend d).rxbuf = s.rxbuf := rfl
@[simp] theorem rxsAppend_explen (d : List Byte) : (s.rxsAppend d).explen = s.explen := rfl
@[simp] theorem rxsAppend_status (d : List Byte) : (s.rxsAppend d).status = s.status := rfl
@[simp] theorem rxsAppend_rxs (d : List Byte) : (s.rxsAppend d).rxs = s.rxs ++ d := rfl
@[simp] theorem rxsAppend_txs (d : List Byte) : (s.rxsAppend d).txs = s.txs := rfl
@[simp] theorem rxsAppend_cancel (d : List Byte) : (s.rxsAppend d).cancel = s.cancel := rfl
@[simp] theorem rxsAppend_timer (d : List Byte) : (s.rxsAppend d).timer = s.timer := rfl
@[simp] theorem rxsAppend_rsp (d : List Byte) : (s.rxsAppend d).rsp = s.rsp := rfl
@[simp] theorem rxsAppend_sched (d : List Byte) : (s.rxsAppend d).sched = s.sched := rfl

/-! `rxsPop` -/

@[simp] theorem rxsPop_params : (s.rxsPop).params = s.params := rfl
@[simp] theorem rxsPop_crc : (s.rxsPop).crc = s.crc := rfl
@[simp] theorem rxsPop_crcMatch : (s.rxsPop).crcMatch = s.crcMatch := rfl
@[simp] theorem rxsPop_rxphase : (s.rxsPop).rxphase = s.rxphase := rfl
@[simp] theorem rxsPop_esc : (s.rxsPop).esc = s.esc := rfl
@[simp] theorem rxsPop_rxbuf : (s.rxsPop).rxbuf = s.rxbuf := rfl
@[simp] theorem rxsPop_explen : (s.rxsPop).explen = s.explen := rfl
@[simp] theorem rxsPop_status : (s.rxsPop).status = s.status := rfl
@[simp] theorem rxsPop_rxs : (s.rxsPop).rxs = s.rxs.tail := rfl
@[simp] theorem rxsPop_txs : (s.rxsPop).txs = s.txs := rfl
@[simp] theorem rxsPop_cancel : (s.rxsPop).cancel = s.cancel := rfl
@[simp] theorem rxsPop_timer : (s.rxsPop).timer = s.timer := rfl
@[simp] theorem rxsPop_rsp : (s.rxsPop).rsp = s.rsp := rfl
@[simp] theorem rxsPop_sched : (s.rxsPop).sched = s.sched := rfl

/-! `txsTake` -/

@[simp] theorem txsTake_params (n : Nat) : (s.txsTake n).params = s.params := rfl
@[simp] theorem txsTake_crc (n : Nat) : (s.txsTake n).crc = s.crc := rfl
@[simp] theorem txsTake_crcMatch (n : Nat) : (s.txsTake n).crcMatch = s.crcMatch := rfl
@[simp] theorem txsTake_rxphase (n : Nat) : (s.txsTake n).rxphase = s.rxphase := rfl
@[simp] theorem txsTake_esc (n : Nat) : (s.txsTake n).esc = s.esc := rfl
@[simp] theorem txsTake_rxbuf (n : Nat) : (s.txsTake n).rxbuf = s.rxbuf := rfl
@[simp] theorem txsTake_explen (n : Nat) : (s.txsTake n).explen = s.explen := rfl
@[simp] theorem txsTake_status (n : Nat) : (s.txsTake n).status = s.status := rfl
@[simp] theorem txsTake_rxs (n : Nat) : (s.txsTake n).rxs = s.rxs := rfl
@[simp] theorem txsTake_txs (n : Nat) : (s.txsTake n).txs = s.txs.drop n := rfl
@[simp] theorem txsTake_cancel (n : Nat) : (s.txsTake n).cancel = s.cancel := rfl
@[simp] theorem txsTake_timer (n : Nat) : (s.txsTake n).timer = s.timer := rfl
@[simp] theorem txsTake_rsp (n : Nat) : (s.txsTake n).rsp = s.rsp := rfl
@[simp] theorem txsTake_sched (n : Nat) : (s.txsTake n).sched = s.sched := rfl

/-! `writeCancel` -/

@[simp] theorem writeCancel_params (b : Bool) : (s.writeCancel b).params = s.params := rfl
@[simp] theorem writeCancel_crc (b : Bool) : (s.writeCancel b).crc = s.crc := rfl
@[simp] theorem writeCancel_crcMatch (b : Bool) : (s.writeCancel b).crcMatch = s.crcMatch := rfl
@[simp] theorem writeCancel_rxphase (b : Bool) : (s.writeCancel b).rxphase = s.rxphase := rfl
@[simp] theorem writeCancel_esc (b : Bool) : (s.writeCancel b).esc = s.esc := rfl
@[simp] theorem writeCancel_rxbuf (b : Bool) : (s.writeCancel b).rxbuf = s.rxbuf := rfl
@[simp] theorem writeCancel_explen (b : Bool) : (s.writeCancel b).explen = s.explen := rfl
@[simp] theorem writeCancel_status (b : Bool) : (s.writeCancel b).status = s.status := rfl
@[simp] theorem writeCancel_rxs (b : Bool) : (s.writeCancel b).rxs = s.rxs := rfl
@[simp] theorem writeCancel_txs (b : Bool) : (s.writeCancel b).txs = s.txs := rfl
@[simp] theorem writeCancel_cancel (b : Bool) : (s.writeCancel b).cancel = b := rfl
@[simp] theorem writeCancel_timer (b : Bool) : (s.writeCancel b).timer = s.timer := rfl
@[simp] theorem writeCancel_rsp (b : Bool) : (s.writeCancel b).rsp = s.rsp := rfl
@[simp] theorem writeCancel_sched (b : Bool) : (s.writeCancel b).sched = s.sched := rfl

/-! `passTimeout` -/

@[simp] theorem passTimeout_params (n : Nat) : (s.passTimeout n).params = s.params := rfl
@[simp] theorem passTimeout_crc (n : Nat) : (s.passTimeout n).crc = s.crc := rfl
@[simp] theorem passTimeout_crcMatch (n : Nat) : (s.passTimeout n).crcMatch = s.crcMatch := rfl
@[simp] theorem passTimeout_rxphase (n : Nat) : (s.passTimeout n).rxphase = s.rxphase := rfl
@[simp] theorem passTimeout_esc (n : Nat) : (s.passTimeout n).esc = s.esc := rfl
@[simp] theorem passTimeout_rxbuf (n : Nat) : (s.passTimeout n).rxbuf = s.rxbuf := rfl
@[simp] theorem passTimeout_explen (n : Nat) : (s.passTimeout n).explen = s.explen := rfl
@[simp] theorem passTimeout_status (n : Nat) : (s.passTimeout n).status = s.status := rfl
@[simp] theorem passTimeout_rxs (n : Nat) : (s.passTimeout n).rxs = s.rxs := rfl
@[simp] theorem passTimeout_txs (n : Nat) : (s.passTimeout n).txs = s.txs := rfl
@[simp] theorem passTimeout_cancel (n : Nat) : (s.passTimeout n).cancel = s.cancel := rfl
@[simp] theorem passTimeout_timer (n : Nat) : (s.passTimeout n).timer = some n := rfl
@[simp] theorem passTimeout_rsp (n : Nat) : (s.passTimeout n).rsp = s.rsp := rfl
@[simp] theorem passTimeout_sched (n : Nat) : (s.passTimeout n).sched = s.sched := rfl

/-! `respond` -/

@[simp] theorem respond_params (r : Response) : (s.respond r).params = s.params := rfl
@[simp] theorem respond_crc (r : Response) : (s.respond r).crc = s.crc := rfl
@[simp] theorem respond_crcMatch (r : Response) : (s.respond r).crcMatch = s.crcMatch := rfl
@[simp] theorem respond_rxphase (r : Response) : (s.respond r).rxphase = s.rxphase := rfl
@[simp] theorem respond_esc (r : Response) : (s.respond r).esc = s.esc := rfl
@[simp] theorem respond_rxbuf (r : Response) : (s.respond r).rxbuf = s.rxbuf := rfl
@[simp] theorem respond_explen (r : Response) : (s.respond r).explen = s.explen := rfl
@[simp] theorem respond_status (r : Response) : (s.respond r).status = s.status := rfl
@[simp] theorem respond_rxs (r : Response) : (s.respond r).rxs = s.rxs := rfl
@[simp] theorem respond_txs (r : Response) : (s.respond r).txs = s.txs := rfl
@[simp] theorem respond_cancel (r : Response) : (s.respond r).cancel = s.cancel := rfl
@[simp] theorem respond_timer (r : Response) : (s.respond r).timer = s.timer := rfl
@[simp] theorem respond_rsp (r : Response) : (s.respond r).rsp = s.rsp ++ [r] := rfl
@[simp] theorem respond_sched (r : Response) : (s.respond r).sched = s.sched := rfl

/-! `refuse` -/

@[simp] theorem refuse_params (r : RefuseReason) : (s.refuse r).params = s.params := rfl
@[simp] theorem refuse_crc (r : RefuseReason) : (s.refuse r).crc = s.crc := rfl
@[simp] theorem refuse_crcMatch (r : RefuseReason) : (s.refuse r).crcMatch = s.crcMatch := rfl
@[simp] theorem refuse_rxphase (r : RefuseReason) : (s.refuse r).rxphase = s.rxphase := rfl
@[simp] theorem refuse_esc (r : RefuseReason) : (s.refuse r).esc = s.esc := rfl
@[simp] theorem refuse_rxbuf (r : RefuseReason) : (s.refuse r).rxbuf = s.rxbuf := rfl
@[simp] theorem refuse_explen (r : RefuseReason) : (s.refuse r).explen = s.explen := rfl
@[simp] theorem refuse_status (r : RefuseReason) : (s.refuse r).status = s.status := rfl
@[simp] theorem refuse_rxs (r : RefuseReason) : (s.refuse r).rxs = s.rxs := rfl
@[simp] theorem refuse_txs (r : RefuseReason) : (s.refuse r).txs = s.txs := rfl
@[simp] theorem refuse_cancel (r : RefuseReason) : (s.refuse r).cancel = s.cancel := rfl
@[simp] theorem refuse_timer (r : RefuseReason) : (s.refuse r).timer = s.timer := rfl
@[simp] theorem refuse_rsp (r : RefuseReason) : (s.refuse r).rsp = s.rsp ++ [.refuse r] := rfl
@[simp] theorem refuse_sched (r : RefuseReason) : (s.refuse r).sched = s.sched := rfl

/-! `emit` -/

@[simp] theorem emit_params (d : List Byte) : (s.emit d).params = s.params := rfl
@[simp] theorem emit_crc (d : List Byte) : (s.emit d).crc = s.crc := rfl
@[simp] theorem emit_crcMatch (d : List Byte) : (s.emit d).crcMatch = s.crcMatch := rfl
@[simp] theorem emit_rxphase (d : List Byte) : (s.emit d).rxphase = s.rxphase := rfl
@[simp] theorem emit_esc (d : List Byte) : (s.emit d).esc = s.esc := rfl
@[simp] theorem emit_rxbuf (d : List Byte) : (s.emit d).rxbuf = s.rxbuf := rfl
@[simp] theorem emit_explen (d : List Byte) : (s.emit d).explen = s.explen := rfl
@[simp] theorem emit_status (d : List Byte) : (s.emit d).status = s.status := rfl
@[simp] theorem emit_rxs (d : List Byte) : (s.emit d).rxs = s.rxs := rfl
@[simp] theorem emit_txs (d : List Byte) : (s.emit d).txs = s.txs ++ d := rfl
@[simp] theorem emit_cancel (d : List Byte) : (s.emit d).cancel = s.cancel := rfl
@[simp] theorem emit_timer (d : List Byte) : (s.emit d).timer = s.timer := rfl
@[simp] theorem emit_rsp (d : List Byte) : (s.emit d).rsp = s.rsp ++ [.accept (.frame d)] := rfl
@[simp] theorem emit_sched (d : List Byte) : (s.emit d).sched = s.sched := rfl

/-! `startReceive` -/

@[simp] theorem startReceive_params (p : RxPhase) (n tmo : Nat) : (s.startReceive p n tmo).params = s.params := rfl
@[simp] theorem startReceive_crc (p : RxPhase) (n tmo : Nat) : (s.startReceive p n tmo).crc = s.crc := rfl
@[simp] theorem startReceive_crcMatch (p : RxPhase) (n tmo : Nat) : (s.startReceive p n tmo).crcMatch = s.crcMatch := rfl
@[simp] theorem startReceive_rxphase (p : RxPhase) (n tmo : Nat) : (s.startReceive p n tmo).rxphase = p := rfl
@[simp] theorem startReceive_esc (p : RxPhase) (n tmo : Nat) : (s.startReceive p n tmo).esc = s.esc := rfl
@[simp] theorem startReceive_rxbuf (p : RxPhase) (n tmo : Nat) : (s.startReceive p n tmo).rxbuf = [] := rfl
@[simp] theorem startReceive_explen (p : RxPhase) (n tmo : Nat) : (s.startReceive p n tmo).explen = n := rfl
@[simp] theorem startReceive_status (p : RxPhase) (n tmo : Nat) : (s.startReceive p n tmo).status = .none := rfl
@[simp] theorem startReceive_rxs (p : RxPhase) (n tmo : Nat) : (s.startReceive p n tmo).rxs = s.rxs := rfl
@[simp] theorem startReceive_txs (p : RxPhase) (n tmo : Nat) : (s.startReceive p n tmo).txs = s.txs := rfl
@[simp] theorem startReceive_cancel (p : RxPhase) (n tmo : Nat) : (s.startReceive p n tmo).cancel = s.cancel := rfl
@[simp] theorem startReceive_timer (p : RxPhase) (n tmo : Nat) : (s.startReceive p n tmo).timer = some tmo := rfl
@[simp] theorem startReceive_rsp (p : RxPhase) (n tmo : Nat) : (s.startReceive p n tmo).rsp = s.rsp ++ [.accept .unit] := rfl
@[simp] theorem startReceive_sched (p : RxPhase) (n tmo : Nat) : (s.startReceive p n tmo).sched = s.sched := rfl

/-! `finish` -/

@[simp] theorem finish_params (c : Status) : (s.finish c).params = s.params := rfl
@[simp] theorem finish_crc (c : Status) : (s.finish c).crc = s.crc := rfl
@[simp] theorem finish_crcMatch (c : Status) : (s.finish c).crcMatch = s.crcMatch := rfl
@[simp] theorem finish_rxphase (c : Status) : (s.finish c).rxphase = .idle := rfl
@[simp] theorem finish_esc (c : Status) : (s.finish c).esc = s.esc := rfl
@[simp] theorem finish_rxbuf (c : Status) : (s.finish c).rxbuf = finishedBuffer s := rfl
@[simp] theorem finish_explen (c : Status) : (s.finish c).explen = s.explen := rfl
@[simp] theorem finish_status (c : Status) : (s.finish c).status = c := rfl
@[simp] theorem finish_rxs (c : Status) : (s.finish c).rxs = s.rxs := rfl
@[simp] theorem finish_txs (c : Status) : (s.finish c).txs = s.txs := rfl
@[simp] theorem finish_cancel (c : Status) : (s.finish c).cancel = s.cancel := rfl
@[simp] theorem finish_timer (c : Status) : (s.finish c).timer = s.timer := rfl
@[simp] theorem finish_rsp (c : Status) : (s.finish c).rsp = s.rsp ++ [.done c (finishedBuffer s)] := rfl
@[simp] theorem finish_sched (c : Status) : (s.finish c).sched = s.sched := rfl

/-! `resetBlock` -/

@[simp] theorem resetBlock_params : (s.resetBlock).params = s.params := rfl
@[simp] theorem resetBlock_crc : (s.resetBlock).crc = s.params.crcInit := rfl
@[simp] theorem resetBlock_crcMatch : (s.resetBlock).crcMatch = false := rfl
@[simp] theorem resetBlock_rxphase : (s.resetBlock).rxphase = .idle := rfl
@[simp] theorem resetBlock_esc : (s.resetBlock).esc = false := rfl
@[simp] theorem resetBlock_rxbuf : (s.resetBlock).rxbuf = [] := rfl
@[simp] theorem resetBlock_explen : (s.resetBlock).explen = 1 := rfl
@[simp] theorem resetBlock_status : (s.resetBlock).status = .none := rfl
@[simp] theorem resetBlock_rxs : (s.resetBlock).rxs = s.rxs := rfl
@[simp] theorem resetBlock_txs : (s.resetBlock).txs = s.txs := rfl
@[simp] theorem resetBlock_cancel : (s.resetBlock).cancel = s.cancel := rfl
@[simp] theorem resetBlock_timer : (s.resetBlock).timer = s.timer := rfl
@[simp] theorem resetBlock_rsp : (s.resetBlock).rsp = s.rsp := rfl
@[simp] theorem resetBlock_sched : (s.resetBlock).sched = s.sched := rfl

/-! `dropMove` -/

@[simp] theorem dropMove_params : (s.dropMove).params = s.params := rfl
@[simp] theorem dropMove_crc : (s.dropMove).crc = s.crc := rfl
@[simp] theorem dropMove_crcMatch : (s.dropMove).crcMatch = s.crcMatch := rfl
@[simp] theorem dropMove_rxphase : (s.dropMove).rxphase = s.rxphase := rfl
@[simp] theorem dropMove_esc : (s.dropMove).esc = s.esc := rfl
@[simp] theorem dropMove_rxbuf : (s.dropMove).rxbuf = s.rxbuf := rfl
@[simp] theorem dropMove_explen : (s.dropMove).explen = s.explen := rfl
@[simp] theorem dropMove_status : (s.dropMove).status = s.status := rfl
@[simp] theorem dropMove_rxs : (s.dropMove).rxs = s.rxs := rfl
@[simp] theorem dropMove_txs : (s.dropMove).txs = s.txs := rfl
@[simp] theorem dropMove_cancel : (s.dropMove).cancel = s.cancel := rfl
@[simp] theorem dropMove_timer : (s.dropMove).timer = s.timer := rfl
@[simp] theorem dropMove_rsp : (s.dropMove).rsp = s.rsp := rfl
@[simp] theorem dropMove_sched : (s.dropMove).sched = s.sched.tail := rfl

end Sys2Proof.Machine
end

