-- ==== Sys2Proof/Laws/Ops.lean ====
section
/-! SUPPORT. What taking a request can do (41_common.md R120). -/

namespace Sys2Proof.Machine

variable {s t : State} {dialect : Option Dialect} {inRange : Bool} {perform : State → State}

theorem refusalReason_busy (h : s.rxphase ≠ .idle) : refusalReason dialect inRange s = some .busy := by
  simp [refusalReason, h]

theorem refusalReason_wrongDialect {d : Dialect} (h : s.rxphase = .idle) (hd : d ≠ s.params.dialect) :
    refusalReason (some d) inRange s = some .wrongDialect := by
  simp [refusalReason, h, hd]

theorem refusalReason_range (h : s.rxphase = .idle) (hd : dialect = none ∨ dialect = some s.params.dialect) :
    refusalReason dialect false s = some .range := by
  rcases hd with rfl | rfl <;> simp [refusalReason, h]

theorem refusalReason_none (h : s.rxphase = .idle) (hd : dialect = none ∨ dialect = some s.params.dialect) :
    refusalReason dialect true s = none := by
  rcases hd with rfl | rfl <;> simp [refusalReason, h]

/-- A request that passes the tests is performed. -/
theorem takeRequest_performs (h : s.rxphase = .idle) (hd : dialect = none ∨ dialect = some s.params.dialect)
    (hr : inRange = true) : takeRequest dialect inRange perform s = .next (perform s) := by
  subst hr
  simp [takeRequest, refusalReason_none h hd]

/-- A request that fails a test is refused for that reason. -/
theorem takeRequest_refuses {r : RefuseReason} (h : refusalReason dialect inRange s = some r) :
    takeRequest dialect inRange perform s = .next (s.refuse r) := by
  simp [takeRequest, h]

/-- All that taking a request can do. -/
theorem takeRequest_cases (h : takeRequest dialect inRange perform s = .next t) :
    (∃ r, refusalReason dialect inRange s = some r ∧ t = s.refuse r) ∨
    (s.rxphase = .idle ∧ (dialect = none ∨ dialect = some s.params.dialect) ∧ inRange = true ∧ t = perform s) := by
  unfold takeRequest at h
  split at h
  · next r hr => exact .inl ⟨r, hr, by simpa using h.symm⟩
  · next hr =>
    have ht : t = perform s := by simpa using h.symm
    refine .inr ⟨?_, ?_, ?_, ht⟩ <;> revert hr <;> unfold refusalReason <;> grind

/-- Taking a request never stops the machine. -/
theorem takeRequest_next : ∃ t, takeRequest dialect inRange perform s = .next t := by
  unfold takeRequest
  split <;> exact ⟨_, rfl⟩

end Sys2Proof.Machine
end

