-- ==== Sys2Proof/Laws/PerInstr.lean ====
section
/-! SUPPORT. Statements made per instruction. Family `LeadByte`: the encoding of an instruction begins with the byte of its
row (30_encoding.md R72, R74, R75, R77 to R79): its `op`, the first byte of the preamble, the delimiter, the escape, the
literal itself, the first byte of the sync pattern. -/

namespace Sys2Proof.Laws.LeadByte

open Sys2Proof.Machine

/-- The first byte of an instruction's row. -/
def leadByte : Instr → Byte
  | .crcInit => 0x10
  | .crcUpd _ => 0x11
  | .crcGet => 0x12
  | .crcCmp _ => 0x13
  | .hfEncs _ _ => 0x20
  | .hfEncl _ _ => 0x21
  | .hfRx _ _ => 0x22
  | .slipEnc _ => 0x30
  | .slipDec _ => 0x31
  | .slipRx _ _ => 0x32
  | .hfShort _ _ => 0x01
  | .hfLong _ _ => 0x01
  | .slipEnd => 0xC0
  | .slipEscEnd => 0xDB
  | .slipEscEsc => 0xDB
  | .slipLiteral b => b
  | .slipFrame _ => 0xC0
  | .slipSync _ => 0x04

/-- The family's statement. -/
def Statement (i : Instr) : Prop := (encode i).head? = some (leadByte i)

theorem crcInit : Statement .crcInit := rfl
theorem crcUpd (b : Byte) : Statement (.crcUpd b) := rfl
theorem crcGet : Statement .crcGet := rfl
theorem crcCmp (v : Word) : Statement (.crcCmp v) := rfl
theorem hfEncs (opc : Byte) (p : List Byte) : Statement (.hfEncs opc p) := rfl
theorem hfEncl (opc : Byte) (p : List Byte) : Statement (.hfEncl opc p) := rfl
theorem hfRx (n tmo : Nat) : Statement (.hfRx n tmo) := rfl
theorem slipEnc (p : List Byte) : Statement (.slipEnc p) := rfl
theorem slipDec (f : List Byte) : Statement (.slipDec f) := rfl
theorem slipRx (n tmo : Nat) : Statement (.slipRx n tmo) := rfl
theorem hfShort (opc : Byte) (p : List Byte) : Statement (.hfShort opc p) := rfl
theorem hfLong (opc : Byte) (p : List Byte) : Statement (.hfLong opc p) := rfl
theorem slipEnd : Statement .slipEnd := rfl
theorem slipEscEnd : Statement .slipEscEnd := rfl
theorem slipEscEsc : Statement .slipEscEsc := rfl
theorem slipLiteral (b : Byte) : Statement (.slipLiteral b) := rfl
theorem slipFrame (p : List Byte) : Statement (.slipFrame p) := rfl
theorem slipSync (x : Byte) : Statement (.slipSync x) := rfl

end Sys2Proof.Laws.LeadByte
end

