-- ==== Sys2Proof/Laws/Receive.lean ====
section
/-! SUPPORT. What a receive step can do, said once (41_common.md R125): nothing, end the operation, or take one byte. -/

namespace Sys2Proof.Machine

variable {s t : State}

/-! ### The arms -/

theorem rxStep_idle {o : Bool} (h : s.rxphase = .idle) : rxStep o s = s := by simp [rxStep, h]

theorem rxStep_cancel {o : Bool} (h : s.rxphase ≠ .idle) (hc : s.cancel = true) :
    rxStep o s = s.finish .cancelled := by simp [rxStep, h, hc]

theorem rxStep_byte {o : Bool} {b : Byte} {more : List Byte} (h : s.rxphase ≠ .idle) (hc : s.cancel = false)
    (hx : s.rxs = b :: more) : rxStep o s = s.rxsPop.consume b := by simp [rxStep, h, hc, hx]

theorem rxStep_timeout (h : s.rxphase ≠ .idle) (hc : s.cancel = false) (hx : s.rxs = []) :
    rxStep true s = s.finish .timeout := by simp [rxStep, h, hc, hx]

theorem rxStep_waits (h : s.rxphase ≠ .idle) (hc : s.cancel = false) (hx : s.rxs = []) : rxStep false s = s := by
  simp [rxStep, h, hc, hx]

/-- All that the block's turn can do. -/
theorem blockTurn_cases :
    blockTurn s = s ∨
    (s.rxphase ≠ .idle ∧ s.cancel = true ∧ blockTurn s = s.finish .cancelled) ∨
    (s.rxphase ≠ .idle ∧ s.cancel = false ∧ ∃ b more, s.rxs = b :: more ∧ blockTurn s = s.rxsPop.consume b) := by
  by_cases h : s.rxphase = .idle
  · exact .inl (rxStep_idle h)
  · by_cases hc : s.cancel = true
    · exact .inr (.inl ⟨h, hc, rxStep_cancel h hc⟩)
    · have hc : s.cancel = false := by simpa using hc
      match hx : s.rxs with
      | [] => exact .inl (rxStep_waits h hc hx)
      | b :: more => exact .inr (.inr ⟨h, hc, b, more, rfl, rxStep_byte h hc hx⟩)

/-- All that an offered `TMO` can do. -/
theorem offerTimeout_cases :
    offerTimeout s = s ∨
    (s.rxphase ≠ .idle ∧ s.cancel = false ∧ s.rxs = [] ∧ offerTimeout s = s.finish .timeout) := by
  unfold offerTimeout
  split
  · next h =>
    by_cases hi : s.rxphase = .idle
    · exact .inl (rxStep_idle hi)
    · exact .inr ⟨hi, h.1, h.2, rxStep_timeout hi h.1 h.2⟩
  · exact .inl rfl

/-! ### The byte steps -/

/-- All that the completion test can do. -/
theorem completionTest_cases :
    completionTest s = s ∨
    (s.rxphase = .collect ∧ s.rxbuf.length = s.explen ∧ completionTest s = s.finish .ok) := by
  unfold completionTest
  split
  · next h => exact .inr ⟨h.1, h.2, rfl⟩
  · exact .inl rfl

/-- All that the search test can do. -/
theorem searchTest_cases :
    searchTest s = s ∨
    (s.rxphase = .search ∧ s.rxbuf.length = 6 ∧ syncMatch s.rxbuf = true ∧ searchTest s = s.writePhase .collect) ∨
    (s.rxphase = .search ∧ s.rxbuf.length = 6 ∧ syncMatch s.rxbuf = false ∧
      searchTest s = s.writeRxbuf (s.rxbuf.drop 1)) := by
  unfold searchTest
  split
  · next h =>
    split
    · next hm => exact .inr (.inl ⟨h.1, h.2, hm, rfl⟩)
    · next hm => exact .inr (.inr ⟨h.1, h.2, by simpa using hm, rfl⟩)
  · exact .inl rfl

/-- All that one byte can do to a running `SLIP.RX`. -/
theorem consumeSlip_cases (b : Byte) :
    (s.consumeSlip b = (s.writeEsc false).finish .escErr) ∨
    (∃ d, s.consumeSlip b = (s.writeEsc false).deliver d) ∨
    (∃ e, s.consumeSlip b = s.writeEsc e) := by
  unfold State.consumeSlip
  obtain h | ⟨d, h⟩ | ⟨e, h⟩ := unstuff_cases s.esc b <;> rw [h]
  · exact .inl rfl
  · exact .inr (.inl ⟨d, rfl⟩)
  · exact .inr (.inr ⟨e, rfl⟩)

/-- All that delivering one byte can do: the buffer grows, the window slides, the collection begins, or the operation ends
`OK`. -/
theorem deliver_cases (d : Byte) :
    ((s.rxphase = .search → (s.rxbuf ++ [d]).length ≠ 6) ∧ (s.rxphase = .collect → (s.rxbuf ++ [d]).length ≠ s.explen) ∧
      s.deliver d = s.writeRxbuf (s.rxbuf ++ [d])) ∨
    (s.rxphase = .search ∧ (s.rxbuf ++ [d]).length = 6 ∧ syncMatch (s.rxbuf ++ [d]) = false ∧
      s.deliver d = s.writeRxbuf ((s.rxbuf ++ [d]).drop 1)) ∨
    (s.rxphase = .search ∧ (s.rxbuf ++ [d]).length = 6 ∧ syncMatch (s.rxbuf ++ [d]) = true ∧ s.explen ≠ 6 ∧
      s.deliver d = (s.writeRxbuf (s.rxbuf ++ [d])).writePhase .collect) ∨
    (s.rxphase ≠ .idle ∧ (s.rxbuf ++ [d]).length = s.explen ∧
      (s.rxphase = .search → s.explen = 6 ∧ syncMatch (s.rxbuf ++ [d]) = true) ∧
      s.deliver d = ((s.writeRxbuf (s.rxbuf ++ [d])).writePhase .collect).finish .ok) := by
  cases hp : s.rxphase
  · exact .inl ⟨by simp, by simp, by simp [State.deliver, searchTest, completionTest, hp]⟩
  · by_cases hl : (s.rxbuf ++ [d]).length = 6
    · by_cases hm : syncMatch (s.rxbuf ++ [d]) = true
      · have hs : searchTest (s.writeRxbuf (s.rxbuf ++ [d])) = (s.writeRxbuf (s.rxbuf ++ [d])).writePhase .collect := by
          simp only [searchTest, writeRxbuf_rxphase, hp, writeRxbuf_rxbuf, hl, syncLen, and_self, if_true, hm]
        by_cases he : s.explen = 6
        · refine .inr (.inr (.inr ⟨by simp, hl.trans he.symm, fun _ => ⟨he, hm⟩, ?_⟩))
          simp only [State.deliver, hs, completionTest, writePhase_rxphase, writePhase_rxbuf, writeRxbuf_rxbuf,
            writePhase_explen, writeRxbuf_explen, hl, he, and_self, if_true]
        · refine .inr (.inr (.inl ⟨rfl, hl, hm, he, ?_⟩))
          have he' : ¬ 6 = s.explen := fun h => he h.symm
          simp only [State.deliver, hs, completionTest, writePhase_rxphase, writePhase_rxbuf, writeRxbuf_rxbuf,
            writePhase_explen, writeRxbuf_explen, hl, he', and_false, if_false]
      · refine .inr (.inl ⟨rfl, hl, by simpa using hm, ?_⟩)
        have hs : searchTest (s.writeRxbuf (s.rxbuf ++ [d])) = s.writeRxbuf ((s.rxbuf ++ [d]).drop 1) := by
          simp only [searchTest, writeRxbuf_rxphase, hp, writeRxbuf_rxbuf, hl, syncLen, and_self, if_true, hm]
          rfl
        simp only [State.deliver, hs, completionTest, writeRxbuf_rxphase, hp, reduceCtorEq, false_and, if_false]
    · refine .inl ⟨fun _ => hl, by simp, ?_⟩
      simp only [State.deliver, searchTest, writeRxbuf_rxphase, hp, writeRxbuf_rxbuf, syncLen, hl, and_false, if_false,
        completionTest, reduceCtorEq, false_and]
  · have hs : searchTest (s.writeRxbuf (s.rxbuf ++ [d])) = s.writeRxbuf (s.rxbuf ++ [d]) := by
      simp only [searchTest, writeRxbuf_rxphase, hp, reduceCtorEq, false_and, if_false]
    by_cases he : (s.rxbuf ++ [d]).length = s.explen
    · refine .inr (.inr (.inr ⟨by simp, he, by simp, ?_⟩))
      simp only [State.deliver, hs, completionTest, writeRxbuf_rxphase, hp, writeRxbuf_rxbuf, writeRxbuf_explen, he,
        and_self, if_true]
      simp [State.finish, finishedBuffer, State.writeRxbuf, State.writePhase, State.respond, State.writeStatus, hp]
    · refine .inl ⟨by simp, fun _ => he, ?_⟩
      simp only [State.deliver, hs, completionTest, writeRxbuf_rxphase, hp, writeRxbuf_rxbuf, writeRxbuf_explen, he,
        and_false, if_false]

/-- All the ways a receive step can end. -/
inductive ReceiveCase (s t : State) : Prop where
  | same (ht : t = s)
  | cancelled (h : s.rxphase ≠ .idle) (hc : s.cancel = true) (ht : t = s.finish .cancelled)
  | timeout (h : s.rxphase ≠ .idle) (hc : s.cancel = false) (hx : s.rxs = []) (ht : t = s.finish .timeout)
  /-- HF: the byte is kept -/
  | hfKept (h : s.rxphase ≠ .idle) (hc : s.cancel = false) (b : Byte) (more : List Byte) (hx : s.rxs = b :: more)
      (hd : s.params.dialect = .hf) (hl : (s.rxbuf ++ [b]).length ≠ s.explen)
      (ht : t = s.rxsPop.writeRxbuf (s.rxbuf ++ [b]))
  /-- HF: the byte is the last one -/
  | hfDone (h : s.rxphase ≠ .idle) (hc : s.cancel = false) (b : Byte) (more : List Byte) (hx : s.rxs = b :: more)
      (hd : s.params.dialect = .hf) (hl : (s.rxbuf ++ [b]).length = s.explen)
      (ht : t = (s.rxsPop.writeRxbuf (s.rxbuf ++ [b])).finish .ok)
  /-- SLIP: a delimiter or an introducer -/
  | dropped (h : s.rxphase ≠ .idle) (hc : s.cancel = false) (b : Byte) (more : List Byte) (hx : s.rxs = b :: more)
      (hd : s.params.dialect = .slip) (e : Bool) (ht : t = s.rxsPop.writeEsc e)
  /-- SLIP: a bad escape -/
  | escError (h : s.rxphase ≠ .idle) (hc : s.cancel = false) (b : Byte) (more : List Byte) (hx : s.rxs = b :: more)
      (hd : s.params.dialect = .slip) (ht : t = (s.rxsPop.writeEsc false).finish .escErr)
  /-- SLIP: a byte is appended and no test fires -/
  | grows (h : s.rxphase ≠ .idle) (hc : s.cancel = false) (b : Byte) (more : List Byte) (hx : s.rxs = b :: more)
      (hd : s.params.dialect = .slip) (d : Byte) (h6 : s.rxphase = .search → (s.rxbuf ++ [d]).length ≠ 6)
      (hl : s.rxphase = .collect → (s.rxbuf ++ [d]).length ≠ s.explen)
      (ht : t = (s.rxsPop.writeEsc false).writeRxbuf (s.rxbuf ++ [d]))
  /-- SLIP: the window does not match and loses its oldest byte -/
  | slides (h : s.rxphase = .search) (hc : s.cancel = false) (b : Byte) (more : List Byte) (hx : s.rxs = b :: more)
      (hd : s.params.dialect = .slip) (d : Byte) (h6 : (s.rxbuf ++ [d]).length = 6)
      (hm : syncMatch (s.rxbuf ++ [d]) = false)
      (ht : t = (s.rxsPop.writeEsc false).writeRxbuf ((s.rxbuf ++ [d]).drop 1))
  /-- SLIP: the window matches and the collection begins -/
  | synced (h : s.rxphase = .search) (hc : s.cancel = false) (b : Byte) (more : List Byte) (hx : s.rxs = b :: more)
      (hd : s.params.dialect = .slip) (d : Byte) (h6 : (s.rxbuf ++ [d]).length = 6)
      (hm : syncMatch (s.rxbuf ++ [d]) = true) (hl : s.explen ≠ 6)
      (ht : t = ((s.rxsPop.writeEsc false).writeRxbuf (s.rxbuf ++ [d])).writePhase .collect)
  /-- SLIP: the byte is the last one -/
  | slipDone (h : s.rxphase ≠ .idle) (hc : s.cancel = false) (b : Byte) (more : List Byte) (hx : s.rxs = b :: more)
      (hd : s.params.dialect = .slip) (d : Byte) (hl : (s.rxbuf ++ [d]).length = s.explen)
      (hm : s.rxphase = .search → s.explen = 6 ∧ syncMatch (s.rxbuf ++ [d]) = true)
      (ht : t = (((s.rxsPop.writeEsc false).writeRxbuf (s.rxbuf ++ [d])).writePhase .collect).finish .ok)

theorem blockTurn_receiveCase (s : State) : ReceiveCase s (blockTurn s) := by
  obtain h | ⟨h, hc, ht⟩ | ⟨h, hc, b, more, hx, ht⟩ := @blockTurn_cases s
  · exact .same h
  · exact .cancelled h hc ht
  · unfold State.consume at ht
    cases hd : s.params.dialect
    · simp only [rxsPop_params, hd, State.consumeHf] at ht
      split at ht
      · next hl => exact .hfDone h hc b more hx hd (by simpa using hl) ht
      · next hl => exact .hfKept h hc b more hx hd (by simpa using hl) ht
    · simp only [rxsPop_params, hd] at ht
      obtain h1 | ⟨d, h1⟩ | ⟨e, h1⟩ := @consumeSlip_cases s.rxsPop b
      · exact .escError h hc b more hx hd (ht.trans h1)
      · obtain ⟨h6, hl, h2⟩ | ⟨hs, h6, hm, h2⟩ | ⟨hs, h6, hm, hl, h2⟩ | ⟨-, hl, hm, h2⟩ :=
          @deliver_cases (s.rxsPop.writeEsc false) d
        · exact .grows h hc b more hx hd d h6 hl (ht.trans (h1.trans h2))
        · exact .slides hs hc b more hx hd d h6 hm (ht.trans (h1.trans h2))
        · exact .synced hs hc b more hx hd d h6 hm hl (ht.trans (h1.trans h2))
        · exact .slipDone h hc b more hx hd d hl hm (ht.trans (h1.trans h2))
      · exact .dropped h hc b more hx hd e (ht.trans h1)

theorem offerTimeout_receiveCase (s : State) : ReceiveCase s (offerTimeout s) := by
  obtain h | ⟨h, hc, hx, ht⟩ := @offerTimeout_cases s
  · exact .same h
  · exact .timeout h hc hx ht

end Sys2Proof.Machine
end

