-- ==== Sys2Proof/Laws/Run.lean ====
section
/-! SUPPORT. Runs of several steps. -/

namespace Sys2Proof.Machine

variable {s t : State}

@[simp] theorem runFor_zero : runFor 0 s = .next s := rfl

/-- A run goes on from the next state. -/
theorem runFor_succ (k : Nat) (h : step s = .next t) : runFor (k + 1) s = runFor k t := by
  rw [runFor, h]

/-- A run goes on from where a shorter run ends. -/
theorem runFor_add {a : Nat} (b : Nat) (h : runFor a s = .next t) : runFor (a + b) s = runFor b t := by
  induction a generalizing s with
  | zero =>
    rw [runFor_zero, Host.Outcome.next.injEq] at h
    rw [h, Nat.zero_add]
  | succ a ih =>
    rw [runFor] at h
    split at h
    · next u hu => rw [Nat.succ_add, runFor_succ (a + b) hu]; exact ih h
    · cases h
    · cases h

/-- One step of the host's run. -/
theorem core_run_succ (M : Host.Core) (k : Nat) (s : M.State) :
    M.run (k + 1) s =
      match M.step s with
      | .next t => M.run k t
      | .fault r => .fault r
      | .refused r => .refused r := rfl

/-- It is the host's run of this machine. -/
theorem core_run_eq_runFor (k : Nat) (s : State) : Sys2Proof.core.run k s = runFor k s := by
  induction k generalizing s with
  | zero => rfl
  | succ k ih =>
    refine (core_run_succ Sys2Proof.core k s).trans ?_
    have h : Sys2Proof.core.step s = step s := rfl
    rw [h, runFor]
    cases step s with
    | next t => exact ih t
    | fault r => rfl
    | refused r => rfl

end Sys2Proof.Machine
end

