-- ==== Sys2Proof/Laws/Step.lean ====
section
/-! SUPPORT. What a step can do, said once: by the move at the head of `sched`, and by the instruction that runs. -/

namespace Sys2Proof.Machine

variable {s t : State}

/-! ### By the move -/

theorem step_no_move (h : s.sched = []) : step s = .next (blockTurn s) := by
  simp [step, nextAction, h]

theorem step_block {rest : List Move} (h : s.sched = .block :: rest) : step s = .next (blockTurn s.dropMove) := by
  simp [step, nextAction, h, moveAction]

theorem step_rx {rest : List Move} {d : List Byte} (h : s.sched = .rx d :: rest) :
    step s = .next (s.dropMove.rxsAppend d) := by
  simp [step, nextAction, h, moveAction]

theorem step_txTake {rest : List Move} {n : Nat} (h : s.sched = .txTake n :: rest) :
    step s = .next (s.dropMove.txsTake n) := by
  simp [step, nextAction, h, moveAction]

theorem step_tmo {rest : List Move} (h : s.sched = .tmo :: rest) : step s = .next (offerTimeout s.dropMove) := by
  simp [step, nextAction, h, moveAction]

theorem step_cancel {rest : List Move} {b : Bool} (h : s.sched = .cancel b :: rest) :
    step s = .next (s.dropMove.writeCancel b) := by
  simp [step, nextAction, h, moveAction]

theorem step_reset {rest : List Move} {q : Option (List Byte)} (h : s.sched = .reset q :: rest) :
    step s = .next s.dropMove.resetBlock := by
  simp [step, nextAction, h, moveAction]

theorem step_present {rest : List Move} {f : Format} {bytes : List Byte} {i : Instr}
    (h : s.sched = .present f bytes :: rest) (hd : decode f bytes = .ok i) : step s = exec i s.dropMove := by
  simp [step, nextAction, h, moveAction, presentAction, hd]

theorem step_badOp {rest : List Move} {f : Format} {bytes : List Byte} {b : Byte}
    (h : s.sched = .present f bytes :: rest) (hd : decode f bytes = .error (.badOp b)) :
    step s = .next (s.dropMove.refuse (badOpReason s.dropMove)) := by
  simp [step, nextAction, h, moveAction, presentAction, hd]

theorem step_malformed {rest : List Move} {f : Format} {bytes : List Byte} {e : DecodeError}
    (h : s.sched = .present f bytes :: rest) (hd : decode f bytes = .error e) (he : ∀ b, e ≠ .badOp b) :
    step s = .refused (.malformed e) := by
  cases e <;> simp_all [step, nextAction, moveAction, presentAction]

/-- All the ways a step gives a next state. -/
inductive StepCase (s t : State) : Prop where
  | turn (h : s.sched = []) (ht : t = blockTurn s)
  | block (rest : List Move) (h : s.sched = .block :: rest) (ht : t = blockTurn s.dropMove)
  | rx (d : List Byte) (rest : List Move) (h : s.sched = .rx d :: rest) (ht : t = s.dropMove.rxsAppend d)
  | txTake (n : Nat) (rest : List Move) (h : s.sched = .txTake n :: rest) (ht : t = s.dropMove.txsTake n)
  | tmo (rest : List Move) (h : s.sched = .tmo :: rest) (ht : t = offerTimeout s.dropMove)
  | cancel (b : Bool) (rest : List Move) (h : s.sched = .cancel b :: rest) (ht : t = s.dropMove.writeCancel b)
  | reset (q : Option (List Byte)) (rest : List Move) (h : s.sched = .reset q :: rest) (ht : t = s.dropMove.resetBlock)
  | badOp (f : Format) (bytes : List Byte) (b : Byte) (rest : List Move) (h : s.sched = .present f bytes :: rest)
      (hd : decode f bytes = .error (.badOp b)) (ht : t = s.dropMove.refuse (badOpReason s.dropMove))
  | run (f : Format) (bytes : List Byte) (i : Instr) (rest : List Move) (h : s.sched = .present f bytes :: rest)
      (hd : decode f bytes = .ok i) (ht : exec i s.dropMove = .next t)

theorem step_cases (h : step s = .next t) : StepCase s t := by
  have next_inj : ∀ {u : State}, step s = .next u → t = u := fun hu => by
    rw [hu] at h; simpa using h.symm
  match hs : s.sched with
  | [] => exact .turn hs (next_inj (step_no_move hs))
  | .block :: rest => exact .block rest hs (next_inj (step_block hs))
  | .rx d :: rest => exact .rx d rest hs (next_inj (step_rx hs))
  | .txTake n :: rest => exact .txTake n rest hs (next_inj (step_txTake hs))
  | .tmo :: rest => exact .tmo rest hs (next_inj (step_tmo hs))
  | .cancel b :: rest => exact .cancel b rest hs (next_inj (step_cancel hs))
  | .reset q :: rest => exact .reset q rest hs (next_inj (step_reset hs))
  | .present f bytes :: rest =>
    match hd : decode f bytes with
    | .ok i => exact .run f bytes i rest hs hd (by rw [← step_present hs hd]; exact h)
    | .error e =>
      by_cases he : ∀ b, e ≠ .badOp b
      · rw [step_malformed hs hd he] at h; cases h
      · obtain ⟨b, rfl⟩ : ∃ b, e = .badOp b := by simpa using he
        exact .badOp f bytes b rest hs hd (next_inj (step_badOp hs hd))

/-! ### By the instruction -/

/-- All the ways an instruction gives a next state: refused, or performed on an idle block of its dialect with its operands
in range, or, for a wire row, its bytes arrive. -/
inductive ExecCase (s t : State) : Instr → Prop where
  | refused (i : Instr) (r : RefuseReason) (hi : i.format = .req) (ht : t = s.refuse r) : ExecCase s t i
  | crcInit (h : s.rxphase = .idle) (ht : t = performCrcInit s) : ExecCase s t .crcInit
  | crcUpd (b : Byte) (h : s.rxphase = .idle) (ht : t = performCrcUpd b s) : ExecCase s t (.crcUpd b)
  | crcGet (h : s.rxphase = .idle) (ht : t = performCrcGet s) : ExecCase s t .crcGet
  | crcCmp (v : Word) (h : s.rxphase = .idle) (ht : t = performCrcCmp v s) : ExecCase s t (.crcCmp v)
  | hfEncs (opc : Byte) (p : List Byte) (h : s.rxphase = .idle) (hd : s.params.dialect = .hf)
      (hr : p.length ≤ hfShortMax) (ht : t = s.emit (hfShortFrame opc p)) : ExecCase s t (.hfEncs opc p)
  | hfEncl (opc : Byte) (p : List Byte) (h : s.rxphase = .idle) (hd : s.params.dialect = .hf)
      (hr : p.length ≤ hfLongMax) (ht : t = s.emit (hfLongFrame opc p)) : ExecCase s t (.hfEncl opc p)
  | hfRx (n tmo : Nat) (h : s.rxphase = .idle) (hd : s.params.dialect = .hf)
      (hr : 1 ≤ n ∧ n ≤ s.params.rxbufCap) (ht : t = s.startReceive .collect n tmo) : ExecCase s t (.hfRx n tmo)
  | slipEnc (p : List Byte) (h : s.rxphase = .idle) (hd : s.params.dialect = .slip)
      (hr : p.length ≤ s.params.txpayMax) (ht : t = s.emit (slipEncFrame p)) : ExecCase s t (.slipEnc p)
  | slipDec (f : List Byte) (h : s.rxphase = .idle) (hd : s.params.dialect = .slip)
      (hr : f.length ≤ 2 * s.params.txpayMax + 2) (ht : t = s.respond (.accept (slipDecAnswer f))) :
      ExecCase s t (.slipDec f)
  | slipRx (n tmo : Nat) (h : s.rxphase = .idle) (hd : s.params.dialect = .slip)
      (hr : syncLen ≤ n ∧ n ≤ s.params.rxbufCap) (ht : t = s.startReceive .search n tmo) :
      ExecCase s t (.slipRx n tmo)
  | arrives (i : Instr) (d : List Byte) (hi : i.format ≠ .req) (ht : t = s.rxsAppend d) : ExecCase s t i

theorem exec_cases {i : Instr} (h : exec i s = .next t) : ExecCase s t i := by
  cases i with
  | crcInit =>
    simp only [exec, execCrcInit] at h
    obtain ⟨r, -, ht⟩ | ⟨hi, -, -, ht⟩ := takeRequest_cases h
    · exact .refused _ r rfl ht
    · exact .crcInit hi ht
  | crcUpd b =>
    simp only [exec, execCrcUpd] at h
    obtain ⟨r, -, ht⟩ | ⟨hi, -, -, ht⟩ := takeRequest_cases h
    · exact .refused _ r rfl ht
    · exact .crcUpd b hi ht
  | crcGet =>
    simp only [exec, execCrcGet] at h
    obtain ⟨r, -, ht⟩ | ⟨hi, -, -, ht⟩ := takeRequest_cases h
    · exact .refused _ r rfl ht
    · exact .crcGet hi ht
  | crcCmp v =>
    simp only [exec, execCrcCmp] at h
    obtain ⟨r, -, ht⟩ | ⟨hi, -, -, ht⟩ := takeRequest_cases h
    · exact .refused _ r rfl ht
    · exact .crcCmp v hi ht
  | hfEncs opc p =>
    simp only [exec, execHfEncs] at h
    obtain ⟨r, -, ht⟩ | ⟨hi, hd, hr, ht⟩ := takeRequest_cases h
    · exact .refused _ r rfl ht
    · exact .hfEncs opc p hi (by simpa [eq_comm] using hd) (by simpa [hfEncsInRange] using hr) ht
  | hfEncl opc p =>
    simp only [exec, execHfEncl] at h
    obtain ⟨r, -, ht⟩ | ⟨hi, hd, hr, ht⟩ := takeRequest_cases h
    · exact .refused _ r rfl ht
    · exact .hfEncl opc p hi (by simpa [eq_comm] using hd) (by simpa [hfEnclInRange] using hr) ht
  | hfRx n tmo =>
    simp only [exec, execHfRx] at h
    obtain ⟨r, -, ht⟩ | ⟨hi, hd, hr, ht⟩ := takeRequest_cases h
    · exact .refused _ r rfl ht
    · exact .hfRx n tmo hi (by simpa [eq_comm] using hd) (by simpa [hfRxInRange] using hr) ht
  | slipEnc p =>
    simp only [exec, execSlipEnc] at h
    obtain ⟨r, -, ht⟩ | ⟨hi, hd, hr, ht⟩ := takeRequest_cases h
    · exact .refused _ r rfl ht
    · exact .slipEnc p hi (by simpa [eq_comm] using hd) (by simpa [slipEncInRange] using hr) ht
  | slipDec f =>
    simp only [exec, execSlipDec] at h
    obtain ⟨r, -, ht⟩ | ⟨hi, hd, hr, ht⟩ := takeRequest_cases h
    · exact .refused _ r rfl ht
    · exact .slipDec f hi (by simpa [eq_comm] using hd) (by simpa [slipDecInRange] using hr) ht
  | slipRx n tmo =>
    simp only [exec, execSlipRx] at h
    obtain ⟨r, -, ht⟩ | ⟨hi, hd, hr, ht⟩ := takeRequest_cases h
    · exact .refused _ r rfl ht
    · exact .slipRx n tmo hi (by simpa [eq_comm] using hd) (by simpa [slipRxInRange] using hr) ht
  | hfShort opc p => exact .arrives _ _ (by simp [Instr.format]) (Host.Outcome.next.inj h).symm
  | hfLong opc p => exact .arrives _ _ (by simp [Instr.format]) (Host.Outcome.next.inj h).symm
  | slipEnd => exact .arrives _ _ (by simp [Instr.format]) (Host.Outcome.next.inj h).symm
  | slipEscEnd => exact .arrives _ _ (by simp [Instr.format]) (Host.Outcome.next.inj h).symm
  | slipEscEsc => exact .arrives _ _ (by simp [Instr.format]) (Host.Outcome.next.inj h).symm
  | slipLiteral b => exact .arrives _ _ (by simp [Instr.format]) (Host.Outcome.next.inj h).symm
  | slipFrame p => exact .arrives _ _ (by simp [Instr.format]) (Host.Outcome.next.inj h).symm
  | slipSync x => exact .arrives _ _ (by simp [Instr.format]) (Host.Outcome.next.inj h).symm

end Sys2Proof.Machine
end

