-- ==== Sys2Proof/Tests/Slice0.lean ====
section
/-! SUPPORT. The model's own tests, each on one step, with expected results from spec/95_test_vectors.md or from the rules
named; and one witness for every obligation that has hypotheses: a state and operands that meet them. -/

namespace Sys2Proof.Tests

open Sys2Proof.Machine Sys2Proof.Claims

/-! ### Small states -/

/-- The state after power-up, with the dialect given. -/
def base (d : Dialect) : State := State.powerUp { Params.default with dialect := d }

/-- A running `HF.RX 2` that has one byte. -/
def hfBusy : State := { base .hf with rxphase := .collect, explen := 2, rxbuf := [0x04] }

/-- A running `SLIP.RX 7` with five bytes in its window, the sixth of which completes the pattern. -/
def slipSearching : State :=
  { base .slip with rxphase := .search, explen := 7, rxbuf := [0x04, 0x0E, 0x05, 0x01, 0xE0] }

/-- A running `SLIP.RX 7` behind its sync point. -/
def slipCollecting : State :=
  { base .slip with rxphase := .collect, explen := 7, rxbuf := [0x04, 0x0E, 0x09, 0x01, 0xE0, 0xFC] }

/-- The state of the vectors CV22 to CV24. -/
def crcState : State := { base .hf with crc := 0x340BC6D9 }

/-- The state with one instruction placed as its next moves. -/
def placed (i : Instr) (s : State) : State := { s with sched := presentAll [i] }

/-- One field of the state an outcome leaves. -/
def field {α : Type} (f : State → α) : Host.Outcome State Fault Refusal → Option α
  | .next t => some (f t)
  | .fault _ => none
  | .refused _ => none

/-! ### Well-formedness: an ill-formed term for each check -/

theorem test_wf_hfEncs : Instr.wellFormed (.hfEncs 0 (List.replicate (2 ^ 32) 0)) = false := by
  simp only [Instr.wellFormed, List.length_replicate]; decide

theorem test_wf_hfEncl : Instr.wellFormed (.hfEncl 0 (List.replicate (2 ^ 32) 0)) = false := by
  simp only [Instr.wellFormed, List.length_replicate]; decide

theorem test_wf_hfRx :
    Instr.wellFormed (.hfRx (2 ^ 32) 0) = false ∧ Instr.wellFormed (.hfRx 1 (2 ^ 32)) = false := by decide

theorem test_wf_slipEnc : Instr.wellFormed (.slipEnc (List.replicate (2 ^ 32) 0)) = false := by
  simp only [Instr.wellFormed, List.length_replicate]; decide

theorem test_wf_slipDec : Instr.wellFormed (.slipDec (List.replicate (2 ^ 32) 0)) = false := by
  simp only [Instr.wellFormed, List.length_replicate]; decide

theorem test_wf_slipRx :
    Instr.wellFormed (.slipRx (2 ^ 32) 0) = false ∧ Instr.wellFormed (.slipRx 6 (2 ^ 32)) = false := by decide

theorem test_wf_hfShort : Instr.wellFormed (.hfShort 0 (List.replicate 255 0)) = false := by
  simp only [Instr.wellFormed, List.length_replicate]; decide

theorem test_wf_hfLong : Instr.wellFormed (.hfLong 0 (List.replicate 65535 0)) = false := by
  simp only [Instr.wellFormed, List.length_replicate]; decide

theorem test_wf_slipLiteral :
    Instr.wellFormed (.slipLiteral 0xC0) = false ∧ Instr.wellFormed (.slipLiteral 0xDB) = false := by decide

/-! ### Decoding: words written out from 30_encoding.md, one for every row -/

/-- R72: `10`. -/
theorem test_decode_crcInit : decode .req [0x10] = .ok .crcInit := rfl

/-- P1: `11 31`. -/
theorem test_decode_crcUpd : decode .req [0x11, 0x31] = .ok (.crcUpd 0x31) := rfl

/-- R72: `12`. -/
theorem test_decode_crcGet : decode .req [0x12] = .ok .crcGet := rfl

/-- P1: `13 26 39 F4 CB` is `CRC.CMP 0xCBF43926`. -/
theorem test_decode_crcCmp : decode .req [0x13, 0x26, 0x39, 0xF4, 0xCB] = .ok (.crcCmp 0xCBF43926) := rfl

/-- P2: `HF.ENCS 0E, []`. -/
theorem test_decode_hfEncs : decode .req [0x20, 0x0E, 0x00, 0x00, 0x00, 0x00] = .ok (.hfEncs 0x0E []) := rfl

/-- P2: `HF.ENCL 09, [00 10 00 00]`. -/
theorem test_decode_hfEncl :
    decode .req [0x21, 0x09, 0x04, 0x00, 0x00, 0x00, 0x00, 0x10, 0x00, 0x00] =
      .ok (.hfEncl 0x09 [0x00, 0x10, 0x00, 0x00]) := rfl

/-- P2: `HF.RX 8, 100`. -/
theorem test_decode_hfRx :
    decode .req [0x22, 0x08, 0x00, 0x00, 0x00, 0x64, 0x00, 0x00, 0x00] = .ok (.hfRx 8 100) := rfl

/-- P2: `SLIP.ENC [01]`. -/
theorem test_decode_slipEnc : decode .req [0x30, 0x01, 0x00, 0x00, 0x00, 0x01] = .ok (.slipEnc [0x01]) := rfl

/-- R71, R72: `SLIP.DEC [C0 C0]`. -/
theorem test_decode_slipDec :
    decode .req [0x31, 0x02, 0x00, 0x00, 0x00, 0xC0, 0xC0] = .ok (.slipDec [0xC0, 0xC0]) := rfl

/-- P3: `SLIP.RX 10`. -/
theorem test_decode_slipRx :
    decode .req [0x32, 0x0A, 0x00, 0x00, 0x00, 0x00, 0x00, 0x00, 0x00] = .ok (.slipRx 10 0) := rfl

/-- H3. -/
theorem test_decode_hfShort :
    decode .hf [0x01, 0xE0, 0xFC, 0x06, 0x0F, 0x00, 0xC2, 0x01, 0x00, 0x14] =
      .ok (.hfShort 0x0F [0x00, 0xC2, 0x01, 0x00, 0x14]) := rfl

/-- H6. -/
theorem test_decode_hfLong :
    decode .hf [0x01, 0xE0, 0xFC, 0xFF, 0xF4, 0x05, 0x00, 0x09, 0x00, 0x10, 0x00, 0x00] =
      .ok (.hfLong 0x09 [0x00, 0x10, 0x00, 0x00]) := rfl

/-- R77. -/
theorem test_decode_slipEnd : decode .slipSym [0xC0] = .ok .slipEnd := rfl

/-- R77. -/
theorem test_decode_slipEscEnd : decode .slipSym [0xDB, 0xDC] = .ok .slipEscEnd := rfl

/-- R77. -/
theorem test_decode_slipEscEsc : decode .slipSym [0xDB, 0xDD] = .ok .slipEscEsc := rfl

/-- R77: `DC` is a literal. -/
theorem test_decode_slipLiteral : decode .slipSym [0xDC] = .ok (.slipLiteral 0xDC) := rfl

/-- EV10. -/
theorem test_decode_slipFrame :
    decode .slipFrame [0xC0, 0x01, 0xDB, 0xDC, 0x02, 0xDB, 0xDD, 0x03, 0xC0] =
      .ok (.slipFrame [0x01, 0xC0, 0x02, 0xDB, 0x03]) := rfl

/-- R79. -/
theorem test_decode_slipSync : decode .sync [0x04, 0x0E, 0x05, 0x01, 0xE0, 0xFC] = .ok (.slipSync 0x05) := rfl

/-! ### Decoding: rejections, by name -/

/-- Q1, Q2: the neighbours of the legal codes. -/
theorem test_decode_badOp :
    decode .req [0x99] = .error (.badOp 0x99) ∧ decode .req [0x00] = .error (.badOp 0x00) ∧
    decode .req [0x14] = .error (.badOp 0x14) ∧ decode .req [0x23] = .error (.badOp 0x23) ∧
    decode .req [0x33] = .error (.badOp 0x33) ∧ decode .req [0xFF] = .error (.badOp 0xFF) :=
  ⟨rfl, rfl, rfl, rfl, rfl, rfl⟩

/-- R71: a request whose bytes end early, or go on. -/
theorem test_decode_lengths :
    decode .req [] = .error .empty ∧ decode .req [0x13, 0x26, 0x39] = .error .truncated ∧
    decode .req [0x30, 0x02, 0x00, 0x00, 0x00, 0x01] = .error .truncated ∧
    decode .req [0x10, 0x10] = .error .trailing := ⟨rfl, rfl, rfl, rfl⟩

/-- The `hf_parse` vectors behind H14: too short, a wrong preamble, `len = 0`. -/
theorem test_decode_notHf :
    decode .hf [0x01, 0xE0, 0xFC, 0x06, 0x0F, 0x00, 0xC2] = .error .notHfFrame ∧
    decode .hf [0x01, 0xE0, 0xFD, 0x01, 0x00] = .error .notHfFrame ∧
    decode .hf [0x01, 0xE0, 0xFC, 0x00, 0x00] = .error .notHfFrame := ⟨rfl, rfl, rfl⟩

/-- R77: `DB` before another byte, or alone. -/
theorem test_decode_notSymbol :
    decode .slipSym [0xDB, 0x00] = .error .notSymbol ∧ decode .slipSym [0xDB] = .error .notSymbol := ⟨rfl, rfl⟩

/-- DV7 and R79. -/
theorem test_decode_notFrame_notSync :
    decode .slipFrame [0xC0, 0xC0, 0xC0] = .error (.notSlipFrame .innerEnd) ∧
    decode .sync [0x04, 0x0E, 0x05, 0x01, 0xE0, 0xFD] = .error .notSync := ⟨rfl, rfl⟩

/-- H12 and the case behind H14: the short frame that imitates a long one. -/
theorem test_hfParse_collision :
    hfParse (hfShortFrame 0xF4 (List.replicate 254 0x11)) = none ∧
    hfParse (hfShortFrame 0xF4 ([0xFC, 0x00, 0x07] ++ List.replicate 251 0x22)) =
      some (.long 0x07 (List.replicate 251 0x22)) := by decide +kernel

/-! ### Words numbered as the table numbers them -/

/-- The fixed bits of the table's rows, the operand bits 0. -/
theorem test_tableWord :
    decodeTableWord 8 0x10 = some .crcInit ∧ decodeTableWord 8 0x11 = some (.crcUpd 0) ∧
    decodeTableWord 8 0x13 = some (.crcCmp 0) ∧ decodeTableWord 8 0x20 = some (.hfEncs 0 []) ∧
    decodeTableWord 8 0x22 = some (.hfRx 0 0) ∧ decodeTableWord 8 0x31 = some (.slipDec []) ∧
    decodeTableWord 8 0xC0 = some .slipEnd ∧ decodeTableWord 16 0xDCDB = some .slipEscEnd ∧
    decodeTableWord 16 0xDDDB = some .slipEscEsc ∧ decodeTableWord 8 0x00 = some (.slipLiteral 0) ∧
    decodeTableWord 48 0xFCE001000E04 = some (.slipSync 0) ∧ decodeTableWord 16 0xC0C0 = some (.slipFrame []) ∧
    decodeTableWord 40 0xCBF4392613 = some (.crcCmp 0xCBF43926) ∧
    decodeTableWord 40 0x0001FCE001 = some (.hfShort 0 []) ∧
    decodeTableWord 64 0x000001F4FFFCE001 = some (.hfLong 0 []) := by decide +kernel

/-- The word is run by the very next step. -/
theorem test_withFetchWord :
    field State.crc (step (State.reset.withFetchWord 16 0x0111)) = some 0x5AFA20E4 := by decide +kernel

/-! ### The CRC engine -/

/-- CV20. -/
theorem test_crcInit : field State.crc (exec .crcInit crcState) = some 0xFFFFFFFF := rfl

/-- CV21 and CV2. -/
theorem test_crcUpd :
    field State.crc (exec (.crcUpd 0x01) (base .hf)) = some 0x5AFA20E4 ∧
    field State.crc (exec (.crcUpd 0x00) (base .hf)) = some 0x2DFD1072 := by decide +kernel

/-- CV22. -/
theorem test_crcGet : field State.rsp (exec .crcGet crcState) = some [.accept (.word 0xCBF43926)] := by decide

/-- CV23 and CV24. -/
theorem test_crcCmp :
    field State.crcMatch (exec (.crcCmp 0xCBF43926) crcState) = some true ∧
    field State.crcMatch (exec (.crcCmp 0xCBF43927) { crcState with crcMatch := true }) = some false := by decide

/-- CV27. -/
theorem test_crcUpd_busy : exec (.crcUpd 0x00) hfBusy = .next { hfBusy with rsp := [.refuse .busy] } := rfl

/-- The spot checks of the table. -/
theorem test_crcTable :
    [0x00, 0x01, 0x6E, 0x80, 0xE6, 0xFE, 0xFF].map crcTable =
      [0x00000000, 0x77073096, 0xAA0A4C5F, 0xEDB88320, 0x4969474D, 0x5A05DF1B, 0x2D02EF8D] := by decide +kernel

/-- CV6. -/
theorem test_crc32_nine_bytes :
    crc32 Params.default [0x31, 0x32, 0x33, 0x34, 0x35, 0x36, 0x37, 0x38, 0x39] = 0xCBF43926 := by decide +kernel

/-! ### The Header-Framed codec -/

/-- H3. -/
theorem test_hfEncs :
    field State.txs (exec (.hfEncs 0x0F [0x00, 0xC2, 0x01, 0x00, 0x14]) (base .hf)) =
      some [0x01, 0xE0, 0xFC, 0x06, 0x0F, 0x00, 0xC2, 0x01, 0x00, 0x14] := by decide

/-- H5. -/
theorem test_hfEncs_range :
    field State.rsp (exec (.hfEncs 0xAA (List.replicate 255 0x55)) (base .hf)) = some [.refuse .range] := by
  decide +kernel

/-- H6. -/
theorem test_hfEncl :
    field State.txs (exec (.hfEncl 0x09 [0x00, 0x10, 0x00, 0x00]) (base .hf)) =
      some [0x01, 0xE0, 0xFC, 0xFF, 0xF4, 0x05, 0x00, 0x09, 0x00, 0x10, 0x00, 0x00] := by decide

/-- H9: the high byte of the length. -/
theorem test_hfEncl_high :
    field (fun t => t.txs.take 8) (exec (.hfEncl 0x01 (List.replicate 255 0x00)) (base .hf)) =
      some [0x01, 0xE0, 0xFC, 0xFF, 0xF4, 0x00, 0x01, 0x01] := by decide +kernel

/-- X6: `HF.RX 0`; and the start of P2. -/
theorem test_hfRx :
    field State.rsp (exec (.hfRx 0 9) (base .hf)) = some [.refuse .range] ∧
    field (fun t => (t.rxphase, t.explen, t.status)) (exec (.hfRx 8 100) (base .hf)) =
      some (.collect, 8, .none) := by decide

/-- X1: the step that takes the last byte. -/
theorem test_hfRx_last_byte :
    step { hfBusy with rxs := [0x0E, 0x05] } = .next { hfBusy with
      rxphase := .idle, status := .ok, rxbuf := [0x04, 0x0E], rxs := [0x05],
      rsp := [.done .ok [0x04, 0x0E]] } := rfl

/-! ### The SLIP-Escaped codec -/

/-- EV10. -/
theorem test_slipEnc :
    field State.txs (exec (.slipEnc [0x01, 0xC0, 0x02, 0xDB, 0x03]) (base .slip)) =
      some [0xC0, 0x01, 0xDB, 0xDC, 0x02, 0xDB, 0xDD, 0x03, 0xC0] := by decide

/-- DV1 to DV7. -/
theorem test_slipDec_delimiters :
    [[], [0xC0], [0xC0, 0xC0], [0x01, 0xC0], [0xC0, 0x01], [0xC0, 0x01, 0xC0, 0x02, 0xC0], [0xC0, 0xC0, 0xC0]].map
      slipDecAnswer =
    [.decFail .noDelim, .decFail .noDelim, .decoded [], .decFail .noDelim, .decFail .noDelim, .decFail .innerEnd,
      .decFail .innerEnd] := by decide

/-- DV8 to DV13. -/
theorem test_slipDec_escapes :
    [[0xC0, 0xDB, 0xC0], [0xC0, 0xDB, 0x00, 0xC0], [0xC0, 0xDB, 0xDB, 0xDD, 0xC0], [0xC0, 0xDB, 0xDC, 0xC0],
      [0xC0, 0xDC, 0xDD, 0xC0], [0xC0, 0xDB, 0xDD, 0xDC, 0xC0]].map slipDecAnswer =
    [.decFail .escErr, .decFail .escErr, .decFail .escErr, .decoded [0xC0], .decoded [0xDC, 0xDD],
      .decoded [0xDB, 0xDC]] := by decide

/-- X24; and Q5: the dialect is tested before the range. -/
theorem test_slipRx_refused :
    field State.rsp (exec (.slipRx 5 0) (base .slip)) = some [.refuse .range] ∧
    field State.rsp (exec (.slipRx 5 0) (base .hf)) = some [.refuse .wrongDialect] := by decide

/-- R168: `esc` is carried over. -/
theorem test_slipRx_start :
    field (fun t => (t.rxphase, t.esc, t.rxbuf)) (exec (.slipRx 6 0) { base .slip with esc := true, rxbuf := [0x01] }) =
      some (.search, true, []) := by decide

/-- X7, the step that completes the pattern. -/
theorem test_slip_match :
    step { slipSearching with rxs := [0xFC, 0xDB] } = .next { slipSearching with
      rxphase := .collect, rxbuf := [0x04, 0x0E, 0x05, 0x01, 0xE0, 0xFC], rxs := [0xDB] } := rfl

/-- X7, the step in which one byte of a failed window is dropped. -/
theorem test_slip_mismatch :
    field State.rxbuf (step { slipSearching with rxbuf := [0x55, 0x04, 0x04, 0x0E, 0x05], rxs := [0x01] }) =
      some [0x04, 0x04, 0x0E, 0x05, 0x01] := by decide

/-- X11: a bad escape in `SEARCH`. -/
theorem test_slip_escErr :
    step { slipSearching with rxbuf := [0x04], esc := true, rxs := [0x0E, 0x09] } = .next { slipSearching with
      rxphase := .idle, status := .escErr, rxbuf := [], rxs := [0x09], rsp := [.done .escErr []] } := rfl

/-- X13: the timeout inside an escape leaves `esc` set. -/
theorem test_slip_timeout :
    field (fun t => (t.rxphase, t.status, t.esc, t.rsp)) (step { slipCollecting with esc := true, sched := [.tmo] }) =
      some (.idle, .timeout, true, [.done .timeout [0x04, 0x0E, 0x09, 0x01, 0xE0, 0xFC]]) := by decide

/-! ### The wire rows -/

/-- H1's frame arrives; and P3's noise and frame arrive in order. -/
theorem test_arrive_hf :
    field State.rxs (exec (.hfShort 0x00 []) (base .hf)) = some [0x01, 0xE0, 0xFC, 0x01, 0x00] ∧
    field State.rxs (exec (.hfLong 0x07 []) { base .hf with rxs := [0xAA] }) =
      some [0xAA, 0x01, 0xE0, 0xFC, 0xFF, 0xF4, 0x01, 0x00, 0x07] := by decide

/-- R77. -/
theorem test_arrive_symbols :
    field State.rxs (exec .slipEnd (base .slip)) = some [0xC0] ∧
    field State.rxs (exec .slipEscEnd (base .slip)) = some [0xDB, 0xDC] ∧
    field State.rxs (exec .slipEscEsc (base .slip)) = some [0xDB, 0xDD] ∧
    field State.rxs (exec (.slipLiteral 0xDC) (base .slip)) = some [0xDC] := by decide

/-- EV9's frame arrives; and X17: with `C0` at its open position the pattern takes 7 raw bytes. -/
theorem test_arrive_frame_sync :
    field State.rxs (exec (.slipFrame [0xC0, 0xC0, 0xC0]) (base .slip)) =
      some [0xC0, 0xDB, 0xDC, 0xDB, 0xDC, 0xDB, 0xDC, 0xC0] ∧
    field State.rxs (exec (.slipSync 0xC0) (base .slip)) =
      some [0x04, 0x0E, 0xDB, 0xDC, 0x01, 0xE0, 0xFC] := by decide

/-! ### Requests, refusals and reset -/

/-- Q1. -/
theorem test_badOp_idle :
    step { base .hf with sched := [.present .req [0x99]] } = .next { base .hf with rsp := [.refuse .badOp] } := rfl

/-- Q3. -/
theorem test_badOp_busy :
    step { hfBusy with sched := [.present .req [0x99]] } = .next { hfBusy with rsp := [.refuse .busy] } := rfl

/-- Q6. -/
theorem test_encode_does_not_read_cancel :
    field State.txs (exec (.hfEncs 0x00 []) { base .hf with cancel := true }) =
      some [0x01, 0xE0, 0xFC, 0x01, 0x00] := by decide

/-- Q7. -/
theorem test_reset_running :
    step { hfBusy with rxs := [0x07], sched := [.reset none] } = .next { base .hf with rxs := [0x07] } := rfl

/-- Q9 and Q10. -/
theorem test_timeout_ignored :
    step { base .hf with sched := [.tmo] } = .next (base .hf) ∧
    step { hfBusy with rxs := [0x07], sched := [.tmo] } = .next { hfBusy with rxs := [0x07] } := ⟨rfl, rfl⟩

/-- X5: `CANCEL` before a waiting byte. -/
theorem test_cancel_first :
    step { hfBusy with rxs := [0x01, 0x02], cancel := true } = .next { hfBusy with
      rxs := [0x01, 0x02], cancel := true, rxphase := .idle, status := .cancelled,
      rsp := [.done .cancelled [0x04]] } := rfl

/-- The `STATUS` values behind Q10. -/
theorem test_statusView :
    [base .hf, base .slip, { slipSearching with esc := true }, slipCollecting, { base .hf with status := .ok },
      { base .hf with status := .timeout }, { base .hf with status := .cancelled },
      { base .slip with status := .escErr }, { base .slip with status := .ok, crcMatch := true }].map State.statusView =
    [0x00, 0x80, 0x85, 0x82, 0x08, 0x10, 0x18, 0xA0, 0xC8] := by decide

/-! ### Witnesses: states and operands that meet the hypotheses of the obligations -/

theorem slipSearching_inv : slipSearching.Inv := by
  constructor <;> decide

theorem slipCollecting_inv : slipCollecting.Inv := by
  constructor <;> decide

theorem hfBusy_inv : hfBusy.Inv := by
  constructor <;> decide

theorem witness_ResetMoveGivesResetRegisters :
    ({ hfBusy with sched := [.reset (some [0x10])] } : State).sched = .reset (some [0x10]) :: [] := rfl

/-- `RXBUF_CAP` at its least value. -/
theorem witness_InvariantHoldsAtPowerUp : ({ Params.default with rxbufCap := 6 } : Params).wf := by decide

/-- The step that takes the last byte of a receive. -/
theorem witness_EveryStepKeepsInvariant :
    ({ hfBusy with rxs := [0x0E] } : State).Inv ∧ ∃ t, step { hfBusy with rxs := [0x0E] } = .next t := by
  refine ⟨?_, _, rfl⟩
  constructor <;> decide

theorem witness_StepRunsDecodedInstruction :
    (placed (.crcUpd 0xFF) hfBusy).sched = .present .req [0x11, 0xFF] :: [] ∧
    decode .req [0x11, 0xFF] = .ok (.crcUpd 0xFF) := ⟨rfl, rfl⟩

theorem witness_StepStopsOnlyOnMalformedItems :
    step { base .hf with sched := [.present .req [0x11]] } = .refused (.malformed .truncated) := rfl

theorem witness_EnvironmentMovesTouchOnlyTheirPort :
    (∃ s : State, s.sched = .rx [0x01] :: []) ∧ (∃ s : State, s.sched = .txTake 2 :: []) ∧
    ∃ s : State, s.sched = .cancel true :: [] :=
  ⟨⟨{ hfBusy with sched := [.rx [0x01]] }, rfl⟩, ⟨{ hfBusy with sched := [.txTake 2] }, rfl⟩,
    ⟨{ hfBusy with sched := [.cancel true] }, rfl⟩⟩

theorem witness_IdleBlockDoesNothing :
    (base .hf).sched = [] ∧ ({ base .hf with sched := [.block] } : State).rxphase = .idle ∧
    ({ base .hf with sched := [.block] } : State).sched = .block :: [] := ⟨rfl, rfl, rfl⟩

theorem witness_NoStepChangesParameters : step (base .slip) = .next (base .slip) := rfl

/-- The longest short frame that is not the exception, and the largest operands of a request. -/
theorem witness_DecodeOfEncodeIsIdentity :
    (Instr.wellFormed (.hfShort 0xF5 (List.replicate 254 0)) = true ∧
      ∀ p, Instr.hfShort 0xF5 (List.replicate 254 0) = .hfShort 0xF4 p → p.length ≠ 254) ∧
    (Instr.wellFormed (.hfRx (2 ^ 32 - 1) (2 ^ 32 - 1)) = true ∧
      Instr.format (.hfRx (2 ^ 32 - 1) (2 ^ 32 - 1)) = .req) := by
  refine ⟨⟨by simp only [Instr.wellFormed, List.length_replicate]; decide, fun p h => ?_⟩, by decide, rfl⟩
  exact absurd (Instr.hfShort.inj h).1 (by decide)

theorem witness_DecodedBytesAreTheEncoding : decode .slipSym [0xDB, 0xDC] = .ok .slipEscEnd := rfl

theorem witness_RequestLengthFollowsFromItsFront :
    Instr.wellFormed (.slipEnc [0xC0]) = true ∧ Instr.format (.slipEnc [0xC0]) = .req := by decide

theorem witness_AcceptanceTestOrder_busy :
    Instr.format (.hfEncs 0 []) = .req ∧ hfBusy.rxphase ≠ .idle := by decide

theorem witness_AcceptanceTestOrder_dialect :
    (base .hf).rxphase = .idle ∧
    (∃ d, opDialect (.slipRx 5 0) = some d ∧ d ≠ (base .hf).params.dialect) := ⟨rfl, .slip, rfl, by decide⟩

/-- Both ends of the ranges, from outside. -/
theorem witness_AcceptanceTestOrder_range :
    (base .slip).rxphase = .idle ∧ (∀ d, opDialect (.slipRx 5 0) = some d → d = (base .slip).params.dialect) ∧
    ¬ opInRange (base .slip).params (.slipRx 5 0) ∧ ¬ opInRange (base .slip).params (.slipRx 65537 0) ∧
    ¬ opInRange (base .hf).params (.hfRx 0 0) ∧ ¬ opInRange (base .hf).params (.hfRx 65537 0) ∧
    ¬ opInRange (base .hf).params (.hfEncs 0 (List.replicate 255 0)) := by
  refine ⟨rfl, fun d h => (Option.some.inj h).symm, ?_, ?_, ?_, ?_, ?_⟩ <;>
    simp only [opInRange, List.length_replicate] <;> decide

/-- Both ends of the ranges, from inside. -/
theorem witness_AcceptanceTestOrder_performed :
    (base .slip).rxphase = .idle ∧ (∀ d, opDialect (.slipRx 6 0) = some d → d = (base .slip).params.dialect) ∧
    opInRange (base .slip).params (.slipRx 6 0) ∧ opInRange (base .slip).params (.slipRx 65536 0) ∧
    opInRange (base .hf).params (.hfRx 1 0) ∧ opInRange (base .hf).params (.hfRx 65536 0) ∧
    opInRange (base .hf).params (.hfEncs 0 (List.replicate 254 0)) ∧ opInRange (base .hf).params .crcInit := by
  refine ⟨rfl, fun d h => (Option.some.inj h).symm, ?_, ?_, ?_, ?_, ?_, trivial⟩ <;>
    simp only [opInRange, List.length_replicate] <;> decide

theorem witness_AcceptanceTestOrder_badOp :
    ({ hfBusy with sched := [.present .req [0x14]] } : State).sched = .present .req (0x14 :: []) :: [] ∧
    (0x14 : Byte) ∉ operationMap.map Prod.fst ∧ hfBusy.rxphase ≠ .idle ∧
    ({ base .hf with sched := [.present .req [0x14]] } : State).rxphase = .idle := by decide

theorem witness_RefusalChangesNothingElse :
    step (placed .crcInit hfBusy) = .next { hfBusy with rsp := [.refuse .busy] } ∧
    ({ hfBusy with rsp := [.refuse .busy] } : State).rsp = (placed .crcInit hfBusy).rsp ++ [.refuse .busy] :=
  ⟨rfl, rfl⟩

theorem witness_RequestsDoNotReadCancel :
    Instr.format .crcGet = .req ∧ ∃ t, exec .crcGet (base .hf) = .next t := ⟨rfl, _, rfl⟩

/-- A step that changes each register. -/
theorem witness_RegistersAreWrittenOnlyByTheirOperations :
    field (fun t => decide (t.crc ≠ crcState.crc)) (step (placed .crcInit crcState)) = some true ∧
    field (fun t => decide (t.crcMatch ≠ crcState.crcMatch)) (step (placed (.crcCmp 0xCBF43926) crcState)) =
      some true ∧
    field (fun t => decide (t.esc ≠ slipCollecting.esc)) (step { slipCollecting with rxs := [0xDB] }) = some true ∧
    field (fun t => decide (t.explen ≠ (base .hf).explen)) (step (placed (.hfRx 2 0) (base .hf))) = some true ∧
    field (fun t => decide (t.rxbuf ≠ hfBusy.rxbuf)) (step { hfBusy with rxs := [0x0E] }) = some true ∧
    field (fun t => decide (t.status ≠ hfBusy.status)) (step { hfBusy with rxs := [0x0E] }) = some true := by
  decide +kernel

/-- A step that makes each of the listed transitions. -/
theorem witness_PhaseTransitionsAreTheListedOnes :
    field State.rxphase (step { hfBusy with sched := [.reset none] }) = some .idle ∧
    field State.rxphase (step (placed (.hfRx 1 0) (base .hf))) = some .collect ∧
    field State.rxphase (step (placed (.slipRx 6 0) (base .slip))) = some .search ∧
    field State.rxphase (step { slipSearching with rxs := [0xFC] }) = some .collect ∧
    field State.rxphase (step { slipSearching with explen := 6, rxs := [0xFC] }) = some .idle := by decide +kernel

/-- A receive that ends, one that is reset, and one that goes on. -/
theorem witness_OneDoneForEachReceiveThatEnds :
    field State.rxphase (step { hfBusy with rxs := [0x0E] }) = some .idle ∧ hfBusy.rxphase ≠ .idle ∧
    ¬ resets { hfBusy with rxs := [0x0E] } ∧
    (∃ t, step { hfBusy with sched := [.reset none] } = .next t) ∧ ∃ t, step hfBusy = .next t := by
  refine ⟨by decide, by decide, ?_, ⟨_, rfl⟩, ⟨_, rfl⟩⟩
  rintro ⟨q, rest, h⟩
  simp [hfBusy, base, State.powerUp] at h

theorem witness_ReceiveStreamIsFirstInFirstOut :
    step { hfBusy with rxs := [0x0E, 0x05] } = .next { hfBusy with
      rxphase := .idle, status := .ok, rxbuf := [0x04, 0x0E], rxs := [0x05],
      rsp := [.done .ok [0x04, 0x0E]] } := rfl

theorem witness_TransmitStreamGrowsByWholeFrames :
    field State.txs (step (placed (.slipEnc []) { base .slip with txs := [0x01] })) = some [0x01, 0xC0, 0xC0] ∧
    field State.txs (step { base .slip with txs := [0x01, 0x02], sched := [.txTake 1] }) = some [0x02] := by
  decide +kernel

theorem witness_NoStepReadsTheTimeout :
    (∃ t, step (placed (.hfRx 1 7) (base .hf)) = .next t) ∧ (∃ t, exec (.hfRx 1 7) (base .hf) = .next t) ∧
    ∃ t, exec (.slipRx 6 7) (base .slip) = .next t := ⟨⟨_, rfl⟩, ⟨_, rfl⟩, ⟨_, rfl⟩⟩

/-- Idle and busy, for the four CRC operations. -/
theorem witness_crc_phases : crcState.rxphase = .idle ∧ hfBusy.rxphase ≠ .idle := by decide

/-- The finalised CRC equal to the operand, and different from it in its last bit. -/
theorem witness_CrcCmpWritesAndAnswersTheMatch :
    crcState.rxphase = .idle ∧ (crcState.crc ^^^ crcState.params.crcXorout) = 0xCBF43926 ∧
    (crcState.crc ^^^ crcState.params.crcXorout) ≠ 0xCBF43927 ∧ hfBusy.rxphase ≠ .idle := by decide

theorem witness_CrcResidueIsConstant : Params.default.crcXorout = 0xFFFFFFFF := rfl

theorem witness_PseudoOperationsRunAsTheirRequests :
    (∃ s : State, s.rxphase = .idle ∧ s.sched = presentAll (crcBlockRequests []) ++ [.block]) ∧
    (∃ s : State, s.rxphase = .idle ∧ s.sched = presentAll (crcUpdnRequests [0x01]) ++ []) ∧
    ∃ s : State, s.rxphase = .idle ∧ s.sched = presentAll (crcVerifyRequests [0x01] 0) ++ [] :=
  ⟨⟨{ base .hf with sched := _ }, rfl, rfl⟩, ⟨{ base .hf with sched := _ }, rfl, rfl⟩,
    ⟨{ base .hf with sched := _ }, rfl, rfl⟩⟩

/-- The refusals of the operations of one dialect: a busy block, and an idle one of the other dialect. -/
theorem witness_busyOrWrongDialect :
    hfBusy.rxphase ≠ .idle ∧ slipSearching.rxphase ≠ .idle ∧
    ((base .hf).rxphase = .idle ∧ (base .hf).params.dialect ≠ .slip) ∧
    ((base .slip).rxphase = .idle ∧ (base .slip).params.dialect ≠ .hf) := by decide

theorem witness_HfEncsEmitsTheShortFrame :
    (base .hf).rxphase = .idle ∧ (base .hf).params.dialect = .hf ∧ (List.replicate 254 (0 : Byte)).length ≤ 254 ∧
    254 < (List.replicate 255 (0 : Byte)).length := by
  refine ⟨rfl, rfl, ?_, ?_⟩ <;> simp only [List.length_replicate] <;> decide

theorem witness_HfEnclEmitsTheLongFrame :
    (base .hf).rxphase = .idle ∧ (base .hf).params.dialect = .hf ∧
    (List.replicate 65534 (0 : Byte)).length ≤ 65534 ∧ 65534 < (List.replicate 65535 (0 : Byte)).length := by
  refine ⟨rfl, rfl, ?_, ?_⟩ <;> simp only [List.length_replicate] <;> decide

/-- Both ends of the range, from inside and from outside. -/
theorem witness_HfRxStartsCollecting :
    (base .hf).rxphase = .idle ∧ (base .hf).params.dialect = .hf ∧
    (1 ≤ 1 ∧ 1 ≤ (base .hf).params.rxbufCap) ∧ (1 ≤ 65536 ∧ 65536 ≤ (base .hf).params.rxbufCap) ∧
    ¬ (1 ≤ 0 ∧ 0 ≤ (base .hf).params.rxbufCap) ∧ ¬ (1 ≤ 65537 ∧ 65537 ≤ (base .hf).params.rxbufCap) := by decide

/-- The byte before the last, and the last. -/
theorem witness_HfByteStepKeepsEveryByte :
    ({ hfBusy with rxs := [0x0E], sched := [.block] } : State).rxs = 0x0E :: [] ∧
    hfBusy.params.dialect = .hf ∧ hfBusy.rxphase = .collect ∧ hfBusy.cancel = false ∧
    hfBusy.rxbuf.length < hfBusy.explen ∧ hfBusy.rxbuf.length + 1 = hfBusy.explen ∧
    ({ hfBusy with explen := 3 } : State).rxbuf.length + 1 < ({ hfBusy with explen := 3 } : State).explen := by decide

/-- `n = 1`, the least. -/
theorem witness_HfReceiveDeliversTheFirstBytes :
    ∃ s : State, s.rxphase = .idle ∧ s.params.dialect = .hf ∧ 1 ≤ 1 ∧ 1 ≤ s.params.rxbufCap ∧ fits32 1 ∧ fits32 0 ∧
      s.cancel = false ∧ [(0xAA : Byte)].length = 1 ∧ s.rxs = [0xAA] ++ [0xE0] ∧ s.sched = presentAll [.hfRx 1 0] :=
  ⟨{ base .hf with rxs := [0xAA, 0xE0], sched := presentAll [.hfRx 1 0] }, by decide⟩

/-- No byte at all, and one byte too few. -/
theorem witness_HfReceiveTimesOutUndersized :
    (∃ s : State, s.rxphase = .idle ∧ s.params.dialect = .hf ∧ 1 ≤ s.params.rxbufCap ∧ fits32 1 ∧ fits32 0 ∧
      s.cancel = false ∧ ([] : List Byte).length < 1 ∧ s.rxs = [] ∧
      s.sched = presentAll [.hfRx 1 0] ++ List.replicate 0 .block ++ [.tmo]) ∧
    ∃ s : State, s.rxphase = .idle ∧ s.params.dialect = .hf ∧ 2 ≤ s.params.rxbufCap ∧ fits32 2 ∧ fits32 0 ∧
      s.cancel = false ∧ [(0x04 : Byte)].length < 2 ∧ s.rxs = [0x04] ∧
      s.sched = presentAll [.hfRx 2 0] ++ List.replicate 1 .block ++ [.tmo] :=
  ⟨⟨{ base .hf with sched := presentAll [.hfRx 1 0] ++ [.tmo] }, by decide⟩,
    ⟨{ base .hf with rxs := [0x04], sched := presentAll [.hfRx 2 0] ++ [.block, .tmo] }, by decide⟩⟩

/-- The longest payloads, and the one short frame that begins like a long one. -/
theorem witness_HfParseUndoesEncode :
    (List.replicate 65534 (0 : Byte)).length ≤ 65534 ∧ (List.replicate 254 (0 : Byte)).length ≤ 254 ∧
    ¬ ((List.replicate 254 (0 : Byte)).length = 254 ∧ (0xF5 : Byte) = 0xF4) ∧
    ((0xFC : Byte) :: 0x00 :: 0x07 :: List.replicate 251 (0x22 : Byte)).length = 254 ∧
    hfShortFrame 0x01 [0x02] = hfShortFrame 0x01 [0x02] ∧ hfLongFrame 0x01 [0x02] = hfLongFrame 0x01 [0x02] := by
  refine ⟨?_, ?_, ?_, ?_, rfl, rfl⟩ <;> simp only [List.length_cons, List.length_replicate] <;> decide

/-- A long frame and a short one. -/
theorem witness_HfParseAcceptsOnlyFrames :
    hfParse [0x01, 0xE0, 0xFC, 0x01, 0x00] = some (.short 0x00 []) ∧
    hfParse [0x01, 0xE0, 0xFC, 0xFF, 0xF4, 0x01, 0x00, 0x07] = some (.long 0x07 []) := ⟨rfl, rfl⟩

/-- Both ends of the range, at a small `TXPAY_MAX`. -/
theorem witness_SlipEncEmitsTheStuffedFrame :
    ∃ s : State, s.rxphase = .idle ∧ s.params.dialect = .slip ∧ [(0xC0 : Byte)].length ≤ s.params.txpayMax ∧
      s.params.txpayMax < [(0xC0 : Byte), 0xDB].length :=
  ⟨State.powerUp { Params.default with dialect := .slip, txpayMax := 1 }, by decide⟩

theorem witness_SlipDecodeCaseByCase :
    slipDecFrame [0xC0, 0xC0] = .ok [] ∧ slipDecFrame [0xC0] = .error .noDelim ∧ (0xC0 : Byte) ≠ 0xDC ∧
    (0xC0 : Byte) ≠ 0xDD := ⟨rfl, rfl, by decide, by decide⟩

/-- A decodable frame and a failing one within the range, and one beyond it. -/
theorem witness_SlipDecAnswersTheTryDecode :
    ∃ s : State, s.rxphase = .idle ∧ s.params.dialect = .slip ∧
      [(0xC0 : Byte), 0xDB, 0xDC, 0xC0].length ≤ 2 * s.params.txpayMax + 2 ∧
      slipDecFrame [0xC0, 0xDB, 0xDC, 0xC0] = .ok [0xC0] ∧ slipDecFrame [0xC0, 0xDB, 0x00, 0xC0] = .error .escErr ∧
      2 * s.params.txpayMax + 2 < [(0xC0 : Byte), 0x01, 0x02, 0x03, 0xC0].length :=
  ⟨State.powerUp { Params.default with dialect := .slip, txpayMax := 1 }, rfl, rfl, by decide, rfl, rfl, by decide⟩

/-- A payload of one escaped byte, at a limit of one byte. -/
theorem witness_SlipEncodeThenDecodeIsIdentity :
    (∃ s : State, s.rxphase = .idle ∧ s.params.dialect = .slip ∧ [(0xDB : Byte)].length ≤ s.params.txpayMax) ∧
    exec (.slipDec [0xC0, 0xDB, 0xDD, 0xC0]) (base .slip) =
      .next { base .slip with rsp := (base .slip).rsp ++ [.accept (.decoded [0xDB])] } :=
  ⟨⟨State.powerUp { Params.default with dialect := .slip, txpayMax := 1 }, by decide⟩, rfl⟩

/-- Both ends of the range, from inside and from outside. -/
theorem witness_SlipRxStartsSearching :
    (base .slip).rxphase = .idle ∧ (base .slip).params.dialect = .slip ∧
    (6 ≤ 6 ∧ 6 ≤ (base .slip).params.rxbufCap) ∧ (6 ≤ 65536 ∧ 65536 ≤ (base .slip).params.rxbufCap) ∧
    ¬ (6 ≤ 5 ∧ 5 ≤ (base .slip).params.rxbufCap) ∧ ¬ (6 ≤ 65537 ∧ 65537 ≤ (base .slip).params.rxbufCap) := by decide

/-- A running block with a byte waiting, the escape flag clear and set, and the bytes where the clauses meet. -/
theorem witness_SlipByteStepDestuffs :
    (∃ s : State, s.params.dialect = .slip ∧ s.rxphase ≠ .idle ∧ s.cancel = false ∧ s.rxs = 0xC0 :: [] ∧
      s.sched = .block :: [] ∧ s.esc = false) ∧
    (∃ s : State, s.params.dialect = .slip ∧ s.rxphase ≠ .idle ∧ s.cancel = false ∧ s.rxs = 0xDE :: [] ∧
      s.sched = .block :: [] ∧ s.esc = true) ∧
    ((0xDC : Byte) ≠ 0xC0 ∧ (0xDC : Byte) ≠ 0xDB) ∧ ((0xDE : Byte) ≠ 0xDC ∧ (0xDE : Byte) ≠ 0xDD) :=
  ⟨⟨{ slipSearching with rxs := [0xC0], sched := [.block] }, by decide⟩,
    ⟨{ slipCollecting with esc := true, rxs := [0xDE], sched := [.block] }, by decide⟩, by decide, by decide⟩

/-- A window of four bytes, of five that match with the sixth and of five that do not, at `explen` 6 and 7; and a collection
one byte before its end and two. -/
theorem witness_DeliverSearchesThenCollects :
    (slipSearching.rxphase = .search ∧
      ({ slipSearching with rxbuf := [0x04, 0x0E, 0x05, 0x01] } : State).rxbuf.length + 1 ≠ 6) ∧
    (slipSearching.rxbuf.length + 1 = 6 ∧ syncMatch (slipSearching.rxbuf ++ [0xFD]) = false ∧
      syncMatch (slipSearching.rxbuf ++ [0xFC]) = true ∧ slipSearching.explen ≠ 6 ∧
      ({ slipSearching with explen := 6 } : State).explen = 6) ∧
    (slipCollecting.rxphase = .collect ∧ slipCollecting.rxbuf.length + 1 = slipCollecting.explen ∧
      ({ slipCollecting with explen := 8 } : State).rxbuf.length + 1 ≠
        ({ slipCollecting with explen := 8 } : State).explen) := by decide

/-- Vector X7's shape: noise `55`, the frame of eight bytes with two escaped ones, a byte behind it. -/
theorem witness_SlipReceiveFindsTheFrameBehindNoise :
    ∃ s : State, s.rxphase = .idle ∧ s.params.dialect = .slip ∧ 6 ≤ s.params.rxbufCap ∧ fits32 6 ∧ fits32 0 ∧
      s.cancel = false ∧ s.esc = false ∧ 6 ≤ 6 ∧
      6 ≤ [(0x04 : Byte), 0x0E, 0x05, 0x01, 0xE0, 0xFC, 0xC0, 0xDB].length ∧
      syncMatch ([(0x04 : Byte), 0x0E, 0x05, 0x01, 0xE0, 0xFC, 0xC0, 0xDB].take 6) = true ∧
      destuff false [0x55, 0xC0] = some ([0x55], false) ∧
      (∀ k, k < [(0x55 : Byte)].length →
        syncMatch ((([(0x55 : Byte)] ++ [0x04, 0x0E, 0x05, 0x01, 0xE0, 0xFC, 0xC0, 0xDB]).drop k).take 6) = false) ∧
      s.rxs = [0x55, 0xC0] ++ slipEncFrame [0x04, 0x0E, 0x05, 0x01, 0xE0, 0xFC, 0xC0, 0xDB] ++ [0x99] ∧
      s.sched = presentAll [.slipRx 6 0] :=
  ⟨{ base .slip with
      rxs := [0x55, 0xC0] ++ slipEncFrame [0x04, 0x0E, 0x05, 0x01, 0xE0, 0xFC, 0xC0, 0xDB] ++ [0x99]
      sched := presentAll [.slipRx 6 0] }, by decide⟩

/-- The three arms, the wait, and the idle block. -/
theorem witness_ReceiveStepArmsInOrder :
    (∃ s : State, s.rxphase ≠ .idle ∧ s.cancel = true ∧ s.sched = .block :: []) ∧
    (∃ s : State, s.rxphase ≠ .idle ∧ s.cancel = false ∧ s.rxs = 0x07 :: [] ∧ s.sched = .block :: []) ∧
    (∃ s : State, s.rxphase ≠ .idle ∧ s.cancel = false ∧ s.rxs = [] ∧ s.sched = .tmo :: []) ∧
    (∃ s : State, s.rxphase ≠ .idle ∧ s.cancel = false ∧ s.rxs = [] ∧ s.sched = .block :: []) ∧
    ∃ s : State, s.rxphase = .idle ∧ (s.sched = .block :: [] ∨ s.sched = .tmo :: []) :=
  ⟨⟨{ hfBusy with cancel := true, sched := [.block] }, by decide⟩,
    ⟨{ hfBusy with rxs := [0x07], sched := [.block] }, by decide⟩, ⟨{ hfBusy with sched := [.tmo] }, by decide⟩,
    ⟨{ hfBusy with sched := [.block] }, by decide⟩, ⟨{ base .hf with sched := [.tmo] }, by decide⟩⟩

/-- Ends in `SEARCH` and in `COLLECT`, with `OK`, with `ESC_ERR`, and with neither. -/
theorem witness_FinishWritesStatusPhaseAndDone :
    (slipSearching.rxphase = .search ∧ hfBusy.rxphase ≠ .search) ∧
    (slipSearching.Inv ∧ slipCollecting.Inv ∧ hfBusy.Inv) ∧
    field (fun t => (t.rxphase, t.status)) (step { slipCollecting with rxs := [0x11] }) = some (.idle, .ok) ∧
    field (fun t => (t.rxphase, t.status)) (step { slipCollecting with esc := true, rxs := [0x11] }) =
      some (.idle, .escErr) ∧
    field (fun t => (t.rxphase, t.status)) (step { slipCollecting with cancel := true }) = some (.idle, .cancelled) :=
  ⟨by decide, ⟨slipSearching_inv, slipCollecting_inv, hfBusy_inv⟩, by decide, by decide, by decide⟩

/-- Taken, and ignored for each of the three reasons. -/
theorem witness_TimeoutIsTakenOnlyWhileWaiting :
    (hfBusy.rxphase ≠ .idle ∧ hfBusy.rxs = [] ∧ hfBusy.cancel = false) ∧
    ¬ ((base .hf).rxphase ≠ .idle ∧ (base .hf).rxs = [] ∧ (base .hf).cancel = false) ∧
    ¬ (hfBusy.rxphase ≠ .idle ∧ ({ hfBusy with rxs := [0x07] } : State).rxs = [] ∧ hfBusy.cancel = false) ∧
    ¬ (hfBusy.rxphase ≠ .idle ∧ hfBusy.rxs = [] ∧ ({ hfBusy with cancel := true } : State).cancel = false) := by decide

/-- Each dialect, at its least length. -/
theorem witness_CancelledReceiveEndsAtItsFirstStep :
    (∃ s : State, s.params.dialect = .hf ∧ 1 ≤ 1 ∧ s.rxphase = .idle ∧ 1 ≤ s.params.rxbufCap ∧ fits32 1 ∧ fits32 0 ∧
      s.cancel = true ∧ s.sched = presentAll [.hfRx 1 0]) ∧
    ∃ s : State, s.params.dialect = .slip ∧ 6 ≤ 6 ∧ s.rxphase = .idle ∧ 6 ≤ s.params.rxbufCap ∧ fits32 6 ∧ fits32 0 ∧
      s.cancel = true ∧ s.sched = presentAll [.slipRx 6 0] :=
  ⟨⟨{ base .hf with cancel := true, rxs := [0x01], sched := presentAll [.hfRx 1 0] }, by decide⟩,
    ⟨{ base .slip with cancel := true, sched := presentAll [.slipRx 6 0] }, by decide⟩⟩

theorem witness_HfFrameArrivesOnTheReceiveStream :
    (List.replicate 254 (0 : Byte)).length ≤ 254 ∧ (List.replicate 65534 (0 : Byte)).length ≤ 65534 := by
  constructor <;> simp only [List.length_replicate] <;> decide

theorem witness_SlipPatternsArriveOnTheReceiveStream : (0xDC : Byte) ≠ 0xC0 ∧ (0xDC : Byte) ≠ 0xDB := by decide

theorem witness_SymbolsStandForTheirBytes :
    slipSearching.params.dialect = .slip ∧ slipSearching.rxphase ≠ .idle ∧ slipSearching.cancel = false ∧
    slipSearching.esc = false ∧ slipSearching.rxs = [] ∧ slipSearching.sched = [] ∧
    exec .slipEscEnd slipSearching = .next { slipSearching with rxs := [0xDB, 0xDC] } ∧
    exec .slipEscEsc slipSearching = .next { slipSearching with rxs := [0xDB, 0xDD] } ∧
    exec (.slipLiteral 0xDC) slipSearching = .next { slipSearching with rxs := [0xDC] } ∧
    exec .slipEnd slipSearching = .next { slipSearching with rxs := [0xC0] } :=
  ⟨rfl, by decide, rfl, rfl, rfl, rfl, rfl, rfl, rfl, rfl⟩

end Sys2Proof.Tests
end

/-! PROOFS. The `STATUS` view (10_state.md R31) and the transitions of `rxphase` (R23). -/

namespace Sys2Proof.Machine

open Sys2Proof.Claims

variable {s t : State}

/-! ### The `STATUS` view -/

/-- The phase's field is two bits wide. -/
theorem RxPhase.code_lt (p : RxPhase) : p.code < 4 := by cases p <;> decide

/-- The status's field is three bits wide. -/
theorem Status.code_lt (c : Status) : c.code < 8 := by cases c <;> decide

theorem dialectCode_eq_bitNat (d : Dialect) : dialectCode d = bitNat (decide (d = .slip)) := by cases d <;> rfl

theorem bitNat_lt (b : Bool) : bitNat b < 2 := by cases b <;> decide

theorem decide_bitNat_eq_one (b : Bool) : decide (bitNat b = 1) = b := by cases b <;> rfl

/-- Each field of the view is below the bound its width sets. -/
theorem statusFields_lt (s : State) :
    s.rxphase.code < 4 ∧ bitNat s.esc < 2 ∧ s.status.code < 8 ∧ bitNat s.crcMatch < 2 ∧
      bitNat (decide (s.params.dialect = .slip)) < 2 :=
  ⟨s.rxphase.code_lt, bitNat_lt _, s.status.code_lt, bitNat_lt _, bitNat_lt _⟩

/-- The five fields fit in the eight bits: nothing is cut off. -/
theorem statusView_toNat (s : State) :
    s.statusView.toNat = s.rxphase.code + 4 * bitNat s.esc + 8 * s.status.code + 64 * bitNat s.crcMatch
      + 128 * bitNat (decide (s.params.dialect = .slip)) := by
  obtain ⟨hphase, hesc, hcode, hmatch, hdial⟩ := statusFields_lt s
  rw [State.statusView, dialectCode_eq_bitNat, BitVec.toNat_ofNat, Nat.mod_eq_of_lt (by omega)]

theorem statusView_phase (s : State) : (s.statusView.extractLsb 1 0).toNat = s.rxphase.code := by
  obtain ⟨hphase, -⟩ := statusFields_lt s
  rw [BitVec.extractLsb_toNat, statusView_toNat, Nat.shiftRight_eq_div_pow]
  omega

theorem statusView_status (s : State) : (s.statusView.extractLsb 5 3).toNat = s.status.code := by
  obtain ⟨hphase, hesc, hcode, -⟩ := statusFields_lt s
  rw [BitVec.extractLsb_toNat, statusView_toNat, Nat.shiftRight_eq_div_pow]
  omega

/-- A bit of the view, by the number the view holds. -/
theorem statusView_getLsbD {k : Nat} {b : Bool} (h : s.statusView.toNat / 2 ^ k % 2 = bitNat b) :
    s.statusView.getLsbD k = b := by
  rw [← BitVec.testBit_toNat, Nat.testBit_eq_decide_div_mod_eq, h, decide_bitNat_eq_one]

theorem statusView_esc (s : State) : s.statusView.getLsbD 2 = s.esc := by
  obtain ⟨hphase, hesc, -⟩ := statusFields_lt s
  refine statusView_getLsbD ?_
  rw [statusView_toNat]
  omega

theorem statusView_crcMatch (s : State) : s.statusView.getLsbD 6 = s.crcMatch := by
  obtain ⟨hphase, hesc, hcode, hmatch, -⟩ := statusFields_lt s
  refine statusView_getLsbD ?_
  rw [statusView_toNat]
  omega

theorem statusView_dialect (s : State) : s.statusView.getLsbD 7 = decide (s.params.dialect = .slip) := by
  obtain ⟨hphase, hesc, hcode, hmatch, hdial⟩ := statusFields_lt s
  refine statusView_getLsbD ?_
  rw [statusView_toNat]
  omega

/-- Settles O16: the view is the number its fields add up to, and each field is read off that number at its bits. -/
theorem statusViewHoldsItsFields : Obligations.StatusViewHoldsItsFields := fun s =>
  ⟨statusView_phase s, statusView_esc s, statusView_status s, statusView_crcMatch s, statusView_dialect s⟩

/-! ### The transitions of `rxphase` -/

/-- A receive step changes the phase only where the window matches, or where the operation ends with its `DONE`. -/
theorem ReceiveCase.phase_change (h : ReceiveCase s t) (hp : t.rxphase ≠ s.rxphase) :
    (s.rxphase = .search ∧ t.rxphase = .collect ∧ syncMatch t.rxbuf = true) ∨
    (s.rxphase ≠ .idle ∧ t.rxphase = .idle ∧ t.rsp = s.rsp ++ [.done t.status t.rxbuf]) := by
  cases h with
  | same ht | hfKept _ _ _ _ _ _ _ ht | dropped _ _ _ _ _ _ _ ht | grows _ _ _ _ _ _ _ _ _ ht
  | slides _ _ _ _ _ _ _ _ _ ht => subst ht; exact absurd rfl hp
  | synced h _ _ _ _ _ _ _ hm _ ht => subst ht; exact .inl ⟨h, rfl, hm⟩
  | cancelled h _ ht | timeout h _ _ ht | hfDone h _ _ _ _ _ _ ht | escError h _ _ _ _ _ ht
  | slipDone h _ _ _ _ _ _ _ _ ht => subst ht; exact .inr ⟨h, rfl, rfl⟩

/-- An instruction changes the phase only where it starts a receive operation on an idle block. -/
theorem ExecCase.phase_change {i : Instr} (h : ExecCase s t i) (hp : t.rxphase ≠ s.rxphase) :
    s.rxphase = .idle ∧
    ((t.rxphase = .collect ∧ ∃ n tmo, i = .hfRx n tmo) ∨ (t.rxphase = .search ∧ ∃ n tmo, i = .slipRx n tmo)) := by
  cases h with
  | hfRx n tmo h _ _ ht => subst ht; exact ⟨h, .inl ⟨rfl, n, tmo, rfl⟩⟩
  | slipRx n tmo h _ _ ht => subst ht; exact ⟨h, .inr ⟨rfl, n, tmo, rfl⟩⟩
  | refused _ _ _ ht | crcInit _ ht | crcUpd _ _ ht | crcGet _ ht | crcCmp _ _ ht | hfEncs _ _ _ _ _ ht
  | hfEncl _ _ _ _ _ ht | slipEnc _ _ _ _ ht | slipDec _ _ _ _ ht | arrives _ _ _ ht =>
    subst ht; exact absurd rfl hp

/-- A step changes the phase only by a reset, a receive request, or a receive step. -/
theorem step_phase_change (h : step s = .next t) (hp : t.rxphase ≠ s.rxphase) :
    (resets s ∧ t.rxphase = .idle) ∨
    (s.rxphase = .idle ∧ t.rxphase = .collect ∧ ∃ n tmo, runs s (.hfRx n tmo)) ∨
    (s.rxphase = .idle ∧ t.rxphase = .search ∧ ∃ n tmo, runs s (.slipRx n tmo)) ∨
    (s.rxphase = .search ∧ t.rxphase = .collect ∧ syncMatch t.rxbuf = true) ∨
    (s.rxphase ≠ .idle ∧ t.rxphase = .idle ∧ t.rsp = s.rsp ++ [.done t.status t.rxbuf]) := by
  cases step_cases h with
  | turn _ ht => subst ht; exact .inr (.inr (.inr ((blockTurn_receiveCase s).phase_change hp)))
  | block _ _ ht => subst ht; exact .inr (.inr (.inr ((blockTurn_receiveCase s.dropMove).phase_change hp)))
  | tmo _ _ ht => subst ht; exact .inr (.inr (.inr ((offerTimeout_receiveCase s.dropMove).phase_change hp)))
  | rx _ _ _ ht | txTake _ _ _ ht | cancel _ _ _ ht | badOp _ _ _ _ _ _ ht => subst ht; exact absurd rfl hp
  | reset q rest hs ht => subst ht; exact .inl ⟨⟨q, rest, hs⟩, rfl⟩
  | run f bytes i rest hs hd ht =>
    have hruns : runs s i := ⟨f, bytes, rest, hs, hd⟩
    obtain ⟨hi, ⟨hc, n, tmo, rfl⟩ | ⟨hc, n, tmo, rfl⟩⟩ := (exec_cases ht).phase_change hp
    · exact .inr (.inl ⟨hi, hc, n, tmo, hruns⟩)
    · exact .inr (.inr (.inl ⟨hi, hc, n, tmo, hruns⟩))

/-- Settles O21, by the cases of a step. -/
theorem phaseTransitionsAreTheListedOnes : Obligations.PhaseTransitionsAreTheListedOnes :=
  ⟨⟨rfl, rfl, rfl⟩, fun _ _ => step_phase_change⟩

end Sys2Proof.Machine

/-! PROOFS. The pseudo-operations run as their requests (30_encoding.md R84), and the response numbers (R85). -/

namespace Sys2Proof.Machine

variable {s t : State} {is js : List Instr} {rest : List Move} {d : List Byte}

/-! ### One presented CRC request -/

theorem presentAll_append : presentAll (is ++ js) = presentAll is ++ presentAll js := List.map_append

/-- The first of several presented items runs, where its bytes decode to it. -/
theorem step_presentAll_cons {i : Instr} (hs : s.sched = presentAll (i :: is) ++ rest)
    (hd : decode i.format (encode i) = .ok i) : step s = exec i s.dropMove :=
  step_present hs hd

theorem decode_encode_crcCmp (v : Word) : decode .req (encode (.crcCmp v)) = .ok (.crcCmp v) := by
  have hv : takeLe32 (le32Bytes v.toNat) = .ok (v.toNat, []) := by
    simpa using takeLe32_le32Bytes v.isLt []
  calc decode .req (encode (.crcCmp v))
    _ = wholeItem ((takeLe32 (le32Bytes v.toNat)).map fun r => (.crcCmp (BitVec.ofNat 32 r.1), r.2)) := rfl
    _ = .ok (.crcCmp v) := by simp [hv, Except.map, wholeItem]

theorem step_crcInit (hi : s.rxphase = .idle) (hs : s.sched = presentAll (.crcInit :: is) ++ rest) :
    step s = .next (performCrcInit s.dropMove) :=
  (step_presentAll_cons hs rfl).trans (takeRequest_performs hi (.inl rfl) rfl)

theorem step_crcUpd {b : Byte} (hi : s.rxphase = .idle) (hs : s.sched = presentAll (.crcUpd b :: is) ++ rest) :
    step s = .next (performCrcUpd b s.dropMove) :=
  (step_presentAll_cons hs rfl).trans (takeRequest_performs hi (.inl rfl) rfl)

theorem step_crcGet (hi : s.rxphase = .idle) (hs : s.sched = presentAll (.crcGet :: is) ++ rest) :
    step s = .next (performCrcGet s.dropMove) :=
  (step_presentAll_cons hs rfl).trans (takeRequest_performs hi (.inl rfl) rfl)

theorem step_crcCmp {v : Word} (hi : s.rxphase = .idle) (hs : s.sched = presentAll (.crcCmp v :: is) ++ rest) :
    step s = .next (performCrcCmp v s.dropMove) :=
  (step_presentAll_cons hs (decode_encode_crcCmp v)).trans (takeRequest_performs hi (.inl rfl) rfl)

/-! ### The sequences -/

/-- The accumulator has become `c`, `k` requests have been answered `ACCEPT()`, and the moves `rest` are left. -/
def State.afterUpdates (s : State) (c : Word) (k : Nat) (rest : List Move) : State :=
  { s with crc := c, rsp := s.rsp ++ List.replicate k (.accept .unit), sched := rest }

theorem runFor_crcUpdn (hi : s.rxphase = .idle) (hs : s.sched = presentAll (crcUpdnRequests d) ++ rest) :
    runFor d.length s = .next (s.afterUpdates (crcFeed s.crc d) d.length rest) := by
  induction d generalizing s with
  | nil =>
    obtain rfl : s.sched = rest := hs
    simp [State.afterUpdates]
  | cons b d ih =>
    have htail : (performCrcUpd b s.dropMove).sched = presentAll (crcUpdnRequests d) ++ rest :=
      congrArg List.tail hs
    rw [List.length_cons, runFor_succ _ (step_crcUpd hi hs), ih (s := performCrcUpd b s.dropMove) hi htail]
    simp [State.afterUpdates, performCrcUpd, State.writeCrc, State.respond, State.dropMove, List.replicate_succ]

/-- `CRC.INIT` and the updates, with which `CRC.BLOCK` and `CRC.VERIFY` both begin. -/
theorem runFor_crcInit_crcUpdn (hi : s.rxphase = .idle)
    (hs : s.sched = presentAll (.crcInit :: crcUpdnRequests d) ++ rest) :
    runFor (d.length + 1) s = .next (s.afterUpdates (crcAcc s.params d) (d.length + 1) rest) := by
  have htail : (performCrcInit s.dropMove).sched = presentAll (crcUpdnRequests d) ++ rest :=
    congrArg List.tail hs
  rw [runFor_succ _ (step_crcInit hi hs), runFor_crcUpdn (s := performCrcInit s.dropMove) hi htail]
  simp [State.afterUpdates, performCrcInit, State.writeCrc, State.respond, State.dropMove, List.replicate_succ, crcAcc]

/-- The last request of such a sequence is one more step. -/
theorem runFor_crcInit_crcUpdn_last {i : Instr} (hi : s.rxphase = .idle)
    (hs : s.sched = presentAll ([.crcInit] ++ crcUpdnRequests d ++ [i]) ++ rest)
    (hl : step (s.afterUpdates (crcAcc s.params d) (d.length + 1) (presentAll [i] ++ rest)) = .next t) :
    runFor (d.length + 2) s = .next t := by
  rw [presentAll_append, List.append_assoc] at hs
  rw [runFor_add 1 (runFor_crcInit_crcUpdn hi hs), runFor_succ 0 hl, runFor_zero]

/-- Settles O33: the updates by induction on the bytes; `CRC.BLOCK` and `CRC.VERIFY` put `CRC.INIT` before them and one more
request after them. -/
theorem pseudoOperationsRunAsTheirRequests : Obligations.PseudoOperationsRunAsTheirRequests := by
  intro s d rest hi
  refine ⟨fun hs => ?_, fun hs => runFor_crcUpdn hi hs, fun v hs => ?_⟩
  · exact runFor_crcInit_crcUpdn_last hi hs (step_crcGet (is := []) hi rfl)
  · exact runFor_crcInit_crcUpdn_last hi hs (step_crcCmp (is := []) hi rfl)

/-! ### The numbers of the response values -/

/-- Settles O15, by evaluating the three code functions on their listed values. -/
theorem responseCodesAreTheListedNumbers : Obligations.ResponseCodesAreTheListedNumbers :=
  ⟨rfl, rfl, rfl⟩

end Sys2Proof.Machine

/-! PROOFS. The four CRC operations (40_crc32.md R104 to R107), each with its one refusal. -/

namespace Sys2Proof.Machine

open Sys2Proof.Claims

variable {s : State} {i : Instr} {dialect : Option Dialect} {inRange : Bool}
  {perform : State → State}

/-- The first test of R120: whatever else is wrong with a request, a busy block answers `BUSY`. -/
theorem answersRefuse_busy (hi : exec i s = takeRequest dialect inRange perform s) (h : s.rxphase ≠ .idle) :
    answersRefuse i s .busy :=
  hi.trans (takeRequest_refuses (refusalReason_busy h))

/-! What each operation does on an idle block: of any dialect, and with no range to meet, it passes the other tests. -/

theorem exec_crcInit_of_idle (h : s.rxphase = .idle) : exec .crcInit s = .next (performCrcInit s) :=
  takeRequest_performs h (.inl rfl) rfl

theorem exec_crcUpd_of_idle (b : Byte) (h : s.rxphase = .idle) : exec (.crcUpd b) s = .next (performCrcUpd b s) :=
  takeRequest_performs h (.inl rfl) rfl

theorem exec_crcGet_of_idle (h : s.rxphase = .idle) : exec .crcGet s = .next (performCrcGet s) :=
  takeRequest_performs h (.inl rfl) rfl

theorem exec_crcCmp_of_idle (v : Word) (h : s.rxphase = .idle) : exec (.crcCmp v) s = .next (performCrcCmp v s) :=
  takeRequest_performs h (.inl rfl) rfl

/-- `crc_step` reads its table at bits 7:0, as R103 and R105 write them. -/
theorem crcStep_eq_extractLsb' (c : Word) (b : Byte) :
    crcStep c b = crcTable ((c ^^^ b.setWidth 32).extractLsb' 0 8) ^^^ (c >>> 8) := by
  rw [crcStep, BitVec.setWidth_eq_extractLsb' (by decide)]

/-- The state `CRC.CMP` leaves, by the comparison's outcome. -/
theorem performCrcCmp_eq {v : Word} {b : Bool} (h : crcMatches v s = b) :
    performCrcCmp v s = { s with crcMatch := b, rsp := s.rsp ++ [.accept (.bit b)] } := by
  subst h
  rfl

theorem crcMatches_of_eq {v : Word} (h : (s.crc ^^^ s.params.crcXorout) = v) : crcMatches v s = true :=
  decide_eq_true h

theorem crcMatches_of_ne {v : Word} (h : (s.crc ^^^ s.params.crcXorout) ≠ v) : crcMatches v s = false :=
  decide_eq_false h

/-- Settles O26: an idle block performs the request, a busy one refuses it. -/
theorem crcInitLoadsTheInitialValue : Obligations.CrcInitLoadsTheInitialValue := fun _ =>
  ⟨exec_crcInit_of_idle, answersRefuse_busy rfl⟩

/-- Settles O27: an idle block performs `crc_step`, read off as R105 writes it; a busy one refuses the request. -/
theorem crcUpdUpdatesByTable : Obligations.CrcUpdUpdatesByTable := by
  intro s b
  refine ⟨fun h => ?_, answersRefuse_busy rfl⟩
  rw [← crcStep_eq_extractLsb']
  exact exec_crcUpd_of_idle b h

/-- Settles O28: an idle block performs the request, a busy one refuses it. -/
theorem crcGetAnswersFinalisedCrc : Obligations.CrcGetAnswersFinalisedCrc := fun _ =>
  ⟨exec_crcGet_of_idle, answersRefuse_busy rfl⟩

/-- Settles O29, by the two outcomes of the comparison on an idle block. -/
theorem crcCmpWritesAndAnswersTheMatch : Obligations.CrcCmpWritesAndAnswersTheMatch := by
  intro s v
  refine ⟨fun h heq => ?_, fun h hne => ?_, answersRefuse_busy rfl⟩
  · rw [exec_crcCmp_of_idle v h, performCrcCmp_eq (crcMatches_of_eq heq)]
  · rw [exec_crcCmp_of_idle v h, performCrcCmp_eq (crcMatches_of_ne hne)]

end Sys2Proof.Machine

/-! PROOFS. Taking a request: the four tests in their order, and that a refusal changes nothing else (41_common.md R120,
R121). -/

namespace Sys2Proof.Machine

open Sys2Proof.Claims

variable {s t : State} {i : Instr}

/-! ### The four tests -/

/-- A request is taken by the tests of R120 at its dialect (R72) and range (R73); performed, it answers `ACCEPT`. -/
theorem exec_eq_takeRequest (hi : i.format = .req) (s : State) :
    ∃ inRange perform, exec i s = takeRequest (opDialect i) inRange perform s ∧
      (inRange = true ↔ opInRange s.params i) ∧ ∃ v, (perform s).rsp = s.rsp ++ [.accept v] := by
  cases i with
  | crcInit | crcUpd | crcGet | crcCmp => exact ⟨true, _, rfl, iff_of_true rfl trivial, _, rfl⟩
  | hfEncs opc p =>
    exact ⟨hfEncsInRange p, fun s => s.emit (hfShortFrame opc p), rfl, decide_eq_true_iff, _, rfl⟩
  | hfEncl opc p =>
    exact ⟨hfEnclInRange p, fun s => s.emit (hfLongFrame opc p), rfl, decide_eq_true_iff, _, rfl⟩
  | hfRx n tmo =>
    exact ⟨hfRxInRange n s, fun s => s.startReceive .collect n tmo, rfl, decide_eq_true_iff, _, rfl⟩
  | slipEnc p =>
    exact ⟨slipEncInRange p s, fun s => s.emit (slipEncFrame p), rfl, decide_eq_true_iff, _, rfl⟩
  | slipDec f =>
    exact ⟨slipDecInRange f s, fun s => s.respond (.accept (slipDecAnswer f)), rfl, decide_eq_true_iff, _, rfl⟩
  | slipRx n tmo =>
    exact ⟨slipRxInRange n s, fun s => s.startReceive .search n tmo, rfl, decide_eq_true_iff, _, rfl⟩
  | hfShort | hfLong | slipEnd | slipEscEnd | slipEscEsc | slipLiteral | slipFrame | slipSync => cases hi

/-- The dialect of an operation passes its test: "any", or the block's own. -/
theorem opDialect_none_or_own {d : Dialect} (h : ∀ d', opDialect i = some d' → d' = d) :
    opDialect i = none ∨ opDialect i = some d := by
  cases ho : opDialect i with
  | none => exact .inl rfl
  | some d' => exact .inr (congrArg some (h d' ho))

/-! ### An illegal `op` -/

theorem opCode_mem_operationMap (o : Op) : opCode o ∈ operationMap.map Prod.fst := by cases o <;> decide

theorem opOf_eq_none {op : Byte} (h : op ∉ operationMap.map Prod.fst) : opOf op = none :=
  Option.eq_none_iff_forall_ne_some.mpr fun o ho => h (opOf_code ho ▸ opCode_mem_operationMap o)

theorem decode_req_badOp {op : Byte} (h : op ∉ operationMap.map Prod.fst) (more : List Byte) :
    decode .req (op :: more) = .error (.badOp op) := by
  simp [decode, decodeRequest, opOf_eq_none h, wholeItem]

theorem dropMove_eq {m : Move} {rest : List Move} (hs : s.sched = m :: rest) :
    s.dropMove = { s with sched := rest } := by
  rw [State.dropMove, hs, List.tail_cons]

/-- A request with an illegal `op` is refused, for the reason `badOpReason` gives. -/
theorem step_illegalOp {op : Byte} {more : List Byte} {rest : List Move} {r : RefuseReason}
    (hs : s.sched = .present .req (op :: more) :: rest) (h : op ∉ operationMap.map Prod.fst)
    (hr : badOpReason s.dropMove = r) :
    step s = .next { s with rsp := s.rsp ++ [.refuse r], sched := rest } := by
  rw [step_badOp hs (decode_req_badOp h more), hr, dropMove_eq hs]
  rfl

/-- Settles O17: every request is one `takeRequest`, whose tests fire in their order; an illegal `op` is no instruction,
and its step refuses it. -/
theorem acceptanceTestOrder : Obligations.AcceptanceTestOrder := by
  refine ⟨fun i s hi => ?_, fun s op more rest hs hop => ⟨fun h => ?_, fun h => ?_⟩⟩
  · obtain ⟨inRange, perform, htake, hrange, v, hv⟩ := exec_eq_takeRequest hi s
    rw [htake]
    refine ⟨fun h => ?_, fun h ⟨d, hd, hne⟩ => ?_, fun h hd hr => ?_, fun h hd hr => ?_⟩
    · exact takeRequest_refuses (refusalReason_busy h)
    · rw [hd]
      exact takeRequest_refuses (refusalReason_wrongDialect h hne)
    · obtain rfl : inRange = false := Bool.eq_false_iff.mpr (mt hrange.mp hr)
      exact takeRequest_refuses (refusalReason_range h (opDialect_none_or_own hd))
    · exact ⟨perform s, v, takeRequest_performs h (opDialect_none_or_own hd) (hrange.mpr hr), hv⟩
  · exact step_illegalOp hs hop (if_pos h)
  · exact step_illegalOp hs hop (if_neg (not_not_intro h))

/-! ### What a step answers -/

/-- A receive step answers nothing, or a `DONE`. -/
theorem ReceiveCase.rsp (h : ReceiveCase s t) :
    t.rsp = s.rsp ∨ ∃ code bytes, t.rsp = s.rsp ++ [.done code bytes] := by
  cases h with
  | same ht | hfKept _ _ _ _ _ _ _ ht | dropped _ _ _ _ _ _ _ ht | grows _ _ _ _ _ _ _ _ _ ht
  | slides _ _ _ _ _ _ _ _ _ ht | synced _ _ _ _ _ _ _ _ _ _ ht => subst ht; exact .inl rfl
  | cancelled _ _ ht | timeout _ _ _ ht | hfDone _ _ _ _ _ _ _ ht | escError _ _ _ _ _ _ ht
  | slipDone _ _ _ _ _ _ _ _ _ ht => subst ht; exact .inr ⟨_, _, rfl⟩

/-- An instruction answers nothing, or an `ACCEPT`, or is refused. -/
theorem ExecCase.rsp (h : ExecCase s t i) :
    t.rsp = s.rsp ∨ (∃ v, t.rsp = s.rsp ++ [.accept v]) ∨ ∃ r, t = s.refuse r := by
  cases h with
  | arrives _ _ _ ht => subst ht; exact .inl rfl
  | refused _ r _ ht => exact .inr (.inr ⟨r, ht⟩)
  | crcInit _ ht | crcUpd _ _ ht | crcGet _ ht | crcCmp _ _ ht | hfEncs _ _ _ _ _ ht | hfEncl _ _ _ _ _ ht
  | hfRx _ _ _ _ _ ht | slipEnc _ _ _ _ ht | slipDec _ _ _ _ ht | slipRx _ _ _ _ _ ht =>
    subst ht; exact .inr (.inl ⟨_, rfl⟩)

/-- A step answers nothing, or an `ACCEPT`, or a `DONE`, or it does nothing but refuse. -/
theorem step_rsp (h : step s = .next t) :
    t.rsp = s.rsp ∨ (∃ v, t.rsp = s.rsp ++ [.accept v]) ∨ (∃ code bytes, t.rsp = s.rsp ++ [.done code bytes]) ∨
    ∃ r, t = s.dropMove.refuse r := by
  cases step_cases h with
  | turn _ ht => subst ht; exact (blockTurn_receiveCase s).rsp.imp_right (.inr ∘ .inl)
  | block _ _ ht => subst ht; exact (blockTurn_receiveCase s.dropMove).rsp.imp_right (.inr ∘ .inl)
  | tmo _ _ ht => subst ht; exact (offerTimeout_receiveCase s.dropMove).rsp.imp_right (.inr ∘ .inl)
  | rx _ _ _ ht | txTake _ _ _ ht | cancel _ _ _ ht | reset _ _ _ ht => subst ht; exact .inl rfl
  | badOp _ _ _ _ _ _ ht => exact .inr (.inr (.inr ⟨_, ht⟩))
  | run _ _ _ _ _ _ ht => exact (exec_cases ht).rsp.imp_right (Or.imp_right .inr)

/-- Settles O18: of all that a step can answer, only the refusing step adds a refusal. -/
theorem refusalChangesNothingElse : Obligations.RefusalChangesNothingElse := by
  intro s t r h hr
  obtain h0 | ⟨v, hv⟩ | ⟨code, bytes, hd⟩ | ⟨r', rfl⟩ := step_rsp h
  · simp [h0] at hr
  · simp [hv] at hr
  · simp [hd] at hr
  · obtain rfl : r' = r := by simpa using hr
    rfl

end Sys2Proof.Machine

/-! PROOFS. The end of a receive operation (41_common.md R126). -/

namespace Sys2Proof.Machine

open Sys2Proof.Claims

variable {s t : State}

/-! ### What `finish` leaves in the buffer -/

theorem finishedBuffer_of_search (h : s.rxphase = .search) : finishedBuffer s = [] := if_pos h

theorem finishedBuffer_of_not_search (h : s.rxphase ≠ .search) : finishedBuffer s = s.rxbuf := if_neg h

/-- Outside the search `finish` keeps the buffer, and it never writes `explen`. -/
theorem finish_rxbuf_length {code : Status} (h : s.rxphase ≠ .search) (hl : s.rxbuf.length = s.explen) :
    (s.finish code).rxbuf.length = (s.finish code).explen := by
  rw [finish_rxbuf, finishedBuffer_of_not_search h, finish_explen, hl]

/-- An operation that ends before its last byte has fewer bytes than it was to have. -/
theorem finishedBuffer_length_lt (hI : s.Inv) (h : s.rxphase ≠ .idle) : (finishedBuffer s).length < s.explen := by
  cases hp : s.rxphase with
  | idle => exact absurd hp h
  | search =>
    rw [finishedBuffer_of_search hp]
    exact hI.explenPos
  | collect =>
    rw [finishedBuffer_of_not_search (by simp [hp])]
    exact hI.collect hp

/-! ### Who ends an operation -/

/-- A receive step at `s` ends the operation in `t`: with its last byte, with a bad escape, or with no byte taken. -/
def EndsReceive (s t : State) : Prop :=
  (t.status = .ok ∧ (∃ b, s.rxs = b :: t.rxs) ∧
    ((s.rxphase = .search → s.params.dialect = .slip) → t.rxbuf.length = t.explen)) ∨
  (t.status = .escErr ∧ s.params.dialect = .slip ∧ (∃ b, s.rxs = b :: t.rxs) ∧
    t.rxbuf = finishedBuffer s ∧ t.explen = s.explen) ∨
  ((t.status = .cancelled ∨ t.status = .timeout) ∧ t.rxbuf = finishedBuffer s ∧ t.explen = s.explen)

/-- Taking the head byte off `RXS` leaves the rest. -/
theorem rxs_eq_head_rxsPop {b : Byte} {more : List Byte} (hx : s.rxs = b :: more) :
    ∃ b, s.rxs = b :: s.rxsPop.rxs :=
  ⟨b, by rw [rxsPop_rxs, hx, List.tail_cons]⟩

theorem ReceiveCase.endsReceive (h : ReceiveCase s t) (hs : s.rxphase ≠ .idle) (ht : t.rxphase = .idle) :
    EndsReceive s t := by
  cases h with
  | same ht' | hfKept _ _ _ _ _ _ _ ht' | dropped _ _ _ _ _ _ _ ht' | grows _ _ _ _ _ _ _ _ _ ht'
  | slides _ _ _ _ _ _ _ _ _ ht' => subst ht'; exact absurd ht hs
  | synced _ _ _ _ _ _ _ _ _ _ ht' => subst ht'; cases ht
  | cancelled _ _ ht' => subst ht'; exact .inr (.inr ⟨.inl rfl, rfl, rfl⟩)
  | timeout _ _ _ ht' => subst ht'; exact .inr (.inr ⟨.inr rfl, rfl, rfl⟩)
  | escError _ _ _ _ hx hd ht' => subst ht'; exact .inr (.inl ⟨rfl, hd, rxs_eq_head_rxsPop hx, rfl, rfl⟩)
  | slipDone _ _ _ _ hx _ _ hl _ ht' =>
    subst ht'
    exact .inl ⟨rfl, rxs_eq_head_rxsPop hx, fun _ => finish_rxbuf_length (by simp) (by simpa using hl)⟩
  | hfDone _ _ _ _ hx hd hl ht' =>
    subst ht'
    have not_searching : (s.rxphase = .search → s.params.dialect = .slip) → s.rxphase ≠ .search := fun hslip hp => by
      simp [hslip hp] at hd
    exact .inl ⟨rfl, rxs_eq_head_rxsPop hx, fun hslip => finish_rxbuf_length (not_searching hslip) (by simpa using hl)⟩

/-- Only a receive step, or a reset, ends a running operation. -/
theorem step_endsReceive (h : step s = .next t) (hs : s.rxphase ≠ .idle) (ht : t.rxphase = .idle)
    (hr : ¬ resets s) : EndsReceive s t := by
  cases step_cases h with
  | turn _ ht' => subst ht'; exact (blockTurn_receiveCase s).endsReceive hs ht
  | block _ _ ht' => subst ht'; exact (blockTurn_receiveCase s.dropMove).endsReceive hs ht
  | tmo _ _ ht' => subst ht'; exact (offerTimeout_receiveCase s.dropMove).endsReceive hs ht
  | rx _ _ _ ht' | txTake _ _ _ ht' | cancel _ _ _ ht' | badOp _ _ _ _ _ _ ht' => subst ht'; exact absurd ht hs
  | reset q rest hq _ => exact absurd ⟨q, rest, hq⟩ hr
  | run _ _ _ _ _ _ ht' => exact absurd ((exec_cases ht').phase_change fun he => hs (he.symm.trans ht)).1 hs

/-- Settles O54: `finish` by whether the operation was still searching; then by how a step ends the operation. -/
theorem finishWritesStatusPhaseAndDone : Obligations.FinishWritesStatusPhaseAndDone := by
  refine ⟨fun s code => ⟨fun h => ?_, fun h => ?_⟩, fun s t h hs ht hr => ?_⟩
  · rw [State.finish, finishedBuffer_of_search h]
    rfl
  · rw [State.finish, finishedBuffer_of_not_search h]
    rfl
  · obtain ⟨hc, hx, hl⟩ | ⟨hc, hd, hx, hb, he⟩ | ⟨hc, hb, he⟩ := step_endsReceive h hs ht hr
    · have hne : t.status ≠ .escErr := by simp [hc]
      exact ⟨fun _ => hx, fun hesc => absurd hesc hne, fun hI _ => hl fun hp => (hI.search hp).1,
        fun _ hok => absurd hc hok⟩
    · have hne : t.status ≠ .ok := by simp [hc]
      exact ⟨fun hok => absurd hok hne, fun _ => ⟨hd, hx⟩, fun _ hok => absurd hok hne,
        fun hI _ => hb ▸ he ▸ finishedBuffer_length_lt hI hs⟩
    · have hne : t.status ≠ .ok ∧ t.status ≠ .escErr := by rcases hc with hc | hc <;> simp [hc]
      exact ⟨fun hok => absurd hok hne.1, fun hesc => absurd hesc hne.2, fun _ hok => absurd hok hne.1,
        fun hI _ => hb ▸ he ▸ finishedBuffer_length_lt hI hs⟩

end Sys2Proof.Machine

/-! PROOFS. The Header-Framed operations (42_header_framed.md R131 to R133) with their refusals, and the byte step of a
running `HF.RX` (R134). -/

namespace Sys2Proof.Machine

open Sys2Proof.Claims

variable {s : State} {i : Instr} {d : Dialect} {inRange : Bool} {perform : State → State}

/-! ### A request of one dialect -/

/-- The first two tests of R120 for an operation of the dialect `d`: both refusals whatever its operands are. -/
theorem busyOrWrongDialect_of_takeRequest (hi : exec i s = takeRequest (some d) inRange perform s) :
    busyOrWrongDialect i s d :=
  ⟨answersRefuse_busy hi, fun h hd => hi.trans (takeRequest_refuses (refusalReason_wrongDialect h hd.symm))⟩

/-- The last test of R120, on an idle block of the operation's dialect. -/
theorem answersRefuse_range (hi : exec i s = takeRequest (some d) inRange perform s) (h : s.rxphase = .idle)
    (hd : s.params.dialect = d) (hr : inRange = false) : answersRefuse i s .range := by
  subst hd hr
  exact hi.trans (takeRequest_refuses (refusalReason_range h (.inr rfl)))

/-- All tests of R120 passed. -/
theorem exec_performs (hi : exec i s = takeRequest (some d) inRange perform s) (h : s.rxphase = .idle)
    (hd : s.params.dialect = d) (hr : inRange = true) : exec i s = .next (perform s) :=
  hi.trans (takeRequest_performs h (.inr (congrArg some hd.symm)) hr)

/-! ### The three operations -/

theorem exec_hfEncs (opc : Byte) (p : List Byte) (s : State) :
    exec (.hfEncs opc p) s = takeRequest (some .hf) (hfEncsInRange p) (fun s => s.emit (hfShortFrame opc p)) s := rfl

theorem exec_hfEncl (opc : Byte) (p : List Byte) (s : State) :
    exec (.hfEncl opc p) s = takeRequest (some .hf) (hfEnclInRange p) (fun s => s.emit (hfLongFrame opc p)) s := rfl

theorem exec_hfRx (n tmo : Nat) (s : State) :
    exec (.hfRx n tmo) s = takeRequest (some .hf) (hfRxInRange n s) (fun s => s.startReceive .collect n tmo) s := rfl

/-- The low byte of a length is that of its remainder, as R76 writes it. -/
theorem lo8_eq_ofNat_mod (n : Nat) : lo8 n = BitVec.ofNat 8 (n % 256) :=
  BitVec.eq_of_toNat_eq (by simp [lo8])

/-- `hf_long` (R130), byte by byte: the length low byte first. -/
theorem hfLongFrame_eq (opc : Byte) (p : List Byte) :
    hfLongFrame opc p = [0x01, 0xE0, 0xFC, 0xFF, 0xF4, BitVec.ofNat 8 ((1 + p.length) % 256),
      BitVec.ofNat 8 ((1 + p.length) / 256), opc] ++ p := by
  rw [hfLongFrame, lo8_eq_ofNat_mod]
  rfl

/-- Settles O34, by the tests of R120: in range the frame, which is `hf_short`'s byte by byte, is emitted. -/
theorem hfEncsEmitsTheShortFrame : Obligations.HfEncsEmitsTheShortFrame := by
  intro s opc p
  refine ⟨fun h hd hr => ?_, busyOrWrongDialect_of_takeRequest (exec_hfEncs opc p s), fun h hd hr => ?_⟩
  · exact exec_performs (exec_hfEncs opc p s) h hd (decide_eq_true hr)
  · exact answersRefuse_range (exec_hfEncs opc p s) h hd (decide_eq_false (Nat.not_le.mpr hr))

/-- Settles O35, by the tests of R120: in range the frame, which is `hf_long`'s, is emitted. -/
theorem hfEnclEmitsTheLongFrame : Obligations.HfEnclEmitsTheLongFrame := by
  intro s opc p
  refine ⟨fun h hd hr => ?_, busyOrWrongDialect_of_takeRequest (exec_hfEncl opc p s), fun h hd hr => ?_⟩
  · rw [← hfLongFrame_eq]
    exact exec_performs (exec_hfEncl opc p s) h hd (decide_eq_true hr)
  · exact answersRefuse_range (exec_hfEncl opc p s) h hd (decide_eq_false (Nat.not_le.mpr hr))

/-- Settles O36, by the tests of R120: in range the operation starts in `COLLECT`. -/
theorem hfRxStartsCollecting : Obligations.HfRxStartsCollecting := by
  intro s n tmo
  refine ⟨fun h hd hn hcap => ?_, busyOrWrongDialect_of_takeRequest (exec_hfRx n tmo s), fun h hd hr => ?_⟩
  · exact exec_performs (exec_hfRx n tmo s) h hd (decide_eq_true ⟨hn, hcap⟩)
  · exact answersRefuse_range (exec_hfRx n tmo s) h hd (decide_eq_false hr)

/-! ### The byte step -/

/-- Once the block's turn has taken its move and the head of `RXS`. -/
theorem dropMove_rxsPop_eq {b : Byte} {more : List Byte} {rest : List Move} (hx : s.rxs = b :: more)
    (hs : s.sched = .block :: rest) : s.dropMove.rxsPop = { s with rxs := more, sched := rest } := by
  rw [dropMove_eq hs, State.rxsPop, hx, List.tail_cons]

theorem consume_hf (b : Byte) (hd : s.params.dialect = .hf) : s.consume b = s.consumeHf b := by
  rw [State.consume, hd]

/-- A byte before the last is kept. -/
theorem consumeHf_of_ne (b : Byte) (h : s.rxbuf.length + 1 ≠ s.explen) :
    s.consumeHf b = s.writeRxbuf (s.rxbuf ++ [b]) :=
  if_neg h

/-- The last byte is kept and ends the operation, which was not searching, with the whole buffer. -/
theorem consumeHf_of_eq (b : Byte) (h : s.rxbuf.length + 1 = s.explen) (hp : s.rxphase ≠ .search) :
    s.consumeHf b = { s with
      rxbuf := s.rxbuf ++ [b]
      status := .ok
      rxphase := .idle
      rsp := s.rsp ++ [.done .ok (s.rxbuf ++ [b])] } := by
  have hb : finishedBuffer (s.writeRxbuf (s.rxbuf ++ [b])) = s.rxbuf ++ [b] := finishedBuffer_of_not_search hp
  rw [State.consumeHf, if_pos h, State.finish, hb]
  rfl

/-- The block's turn of a running `HF.RX` takes its move and the head of `RXS`, and consumes that byte by R134. -/
theorem step_block_hf {b : Byte} {more : List Byte} {rest : List Move} (hd : s.params.dialect = .hf)
    (h : s.rxphase ≠ .idle) (hc : s.cancel = false) (hx : s.rxs = b :: more) (hs : s.sched = .block :: rest) :
    step s = .next (State.consumeHf { s with rxs := more, sched := rest } b) := by
  rw [← dropMove_rxsPop_eq hx hs, ← consume_hf (s := s.dropMove.rxsPop) b hd, step_block hs, blockTurn,
    rxStep_byte (s := s.dropMove) h hc hx]

/-- Settles O37, by whether the byte is the last one. -/
theorem hfByteStepKeepsEveryByte : Obligations.HfByteStepKeepsEveryByte := by
  intro s b more rest hd hp _ hc hx hs
  have hstep := step_block_hf hd (by simp [hp]) hc hx hs
  refine ⟨fun hl => ?_, fun hl => ?_⟩
  · exact hstep.trans (congrArg _ (consumeHf_of_ne b hl.ne))
  · exact hstep.trans (congrArg _ (consumeHf_of_eq b hl (by simp [hp])))

end Sys2Proof.Machine

/-! PROOFS. The SLIP wire functions: escaping and frames (43_slip.md R161, R162), the strict try-decode (R165) and the sync
pattern (R171). -/

namespace Sys2Proof.Machine

open Sys2Proof.Claims

/-! ### Escaping -/

/-- The length of a symbol, in the terms in which `doubled` counts. -/
theorem slipSym_length (b : Byte) : (slipSym b).length = 1 + if b = 0xC0 || b = 0xDB then 1 else 0 := by
  obtain ⟨rfl, h⟩ | ⟨rfl, h⟩ | ⟨hend, hesc, h⟩ := slipSym_cases b
  · rw [h]; rfl
  · rw [h]; rfl
  · have hb : (b = 0xC0 || b = 0xDB) = false := by
      rw [Bool.or_eq_false_iff]
      exact ⟨decide_eq_false hend, decide_eq_false hesc⟩
    rw [h, hb]
    rfl

theorem stuff_length (p : List Byte) : (stuff p).length = p.length + doubled p := by
  induction p with
  | nil => rfl
  | cons b p ih =>
    rw [stuff_cons, List.length_append, slipSym_length, ih, List.length_cons, doubled, doubled, List.countP_cons]
    omega

/-- No symbol contains the delimiter. -/
theorem slipEND_notMem_slipSym (b : Byte) : slipEND ∉ slipSym b := by
  obtain ⟨-, h⟩ | ⟨-, h⟩ | ⟨hend, -, h⟩ := slipSym_cases b <;> rw [h]
  · decide
  · decide
  · exact List.mem_singleton.not.mpr (Ne.symm hend)

theorem slipEND_notMem_stuff (p : List Byte) : slipEND ∉ stuff p := by
  induction p with
  | nil => exact List.not_mem_nil
  | cons b p ih => simp [slipEND_notMem_slipSym, ih]

/-- Settles O42: the recursion is `stuff`'s own; no delimiter and the length by induction on the payload. -/
theorem stuffEscapesByteByByte : Obligations.StuffEscapesByteByByte :=
  ⟨rfl, fun _ _ => rfl, fun p => ⟨slipEND_notMem_stuff p, stuff_length p⟩⟩

/-! ### Frames -/

theorem slipEncFrame_eq (p : List Byte) : slipEncFrame p = slipEND :: (stuff p ++ [slipEND]) := rfl

theorem slipEncFrame_length (p : List Byte) : (slipEncFrame p).length = (stuff p).length + 2 := by
  simp [slipEncFrame_eq]

/-- Between two delimiters that do not occur inside, the delimiters are at the two ends only. -/
theorem getElem?_delimited_iff {a : Byte} {body : List Byte} (h : a ∉ body) (k : Nat) :
    (a :: (body ++ [a]))[k]? = some a ↔ k = 0 ∨ k = body.length + 1 := by
  cases k with
  | zero => simp
  | succ k =>
    rw [List.getElem?_cons_succ]
    obtain hk | rfl | hk := lt_trichotomy k body.length
    · have hne : body[k]? ≠ some a := fun ha => h (List.mem_of_getElem? ha)
      simp [List.getElem?_append_left hk, hne, hk.ne]
    · simp
    · have hnone : (body ++ [a])[k]? = none := List.getElem?_eq_none (by simpa using hk)
      simp [hnone, hk.ne']

/-- Settles O43, from the length of `stuff p` and that it contains no delimiter. -/
theorem slipFrameHasOnlyItsTwoDelimiters : Obligations.SlipFrameHasOnlyItsTwoDelimiters := by
  intro p
  refine ⟨rfl, ?_, fun k => ?_⟩
  · rw [slipEncFrame_length, stuff_length]
    omega
  · rw [slipEncFrame_length]
    exact getElem?_delimited_iff (slipEND_notMem_stuff p) k

/-! ### The try-decode -/

/-- The raw byte that a set escape flag remembers. -/
def openEscape (e : Bool) : List Byte := if e then [slipESC] else []

/-- A raw byte is a bare delimiter, starts an escape, completes the symbol of the byte it gives, or breaks an escape. -/
theorem unstuff_symbol_cases (e : Bool) (b : Byte) :
    (e = false ∧ b = slipEND) ∨ (e = false ∧ b = slipESC) ∨
    (∃ d, openEscape e ++ [b] = slipSym d ∧ unstuff e b = (false, .byte d)) ∨ unstuff e b = (false, .error) := by
  cases e with
  | false =>
    by_cases hend : b = slipEND
    · exact .inl ⟨rfl, hend⟩
    · by_cases hesc : b = slipESC
      · exact .inr (.inl ⟨rfl, hesc⟩)
      · exact .inr (.inr (.inl ⟨b, (slipSym_literal hend hesc).symm, unstuff_literal hend hesc⟩))
  | true =>
    by_cases hend : b = slipESCEND
    · exact .inr (.inr (.inl ⟨slipEND, by rw [hend]; rfl, by rw [hend]; rfl⟩))
    · by_cases hesc : b = slipESCESC
      · exact .inr (.inr (.inl ⟨slipESC, by rw [hesc]; rfl, by rw [hesc]; rfl⟩))
      · exact .inr (.inr (.inr (unstuff_bad hend hesc)))

/-- The bytes of a scan that succeeds, behind the escape still open, are the escaped form of what it gives. -/
theorem slipDecBody_ok {e : Bool} {body p : List Byte} (h : slipDecBody e body = .ok p) :
    openEscape e ++ body = stuff p := by
  induction body generalizing e p with
  | nil =>
    cases e <;> cases h
    rfl
  | cons b rest ih =>
    rw [slipDecBody] at h
    split at h
    · cases h
    · next hb =>
      obtain hend | ⟨rfl, rfl⟩ | ⟨d, hsym, hu⟩ | hu := unstuff_symbol_cases e b
      · exact absurd hend hb
      · exact ih (e := true) h
      · rw [hu] at h
        cases hrest : slipDecBody false rest with
        | error r => simp [hrest] at h
        | ok out =>
          obtain rfl : d :: out = p := by simpa [hrest] using h
          rw [stuff_cons, ← hsym, ← ih hrest, List.append_cons]
          rfl
      · rw [hu] at h
        cases h

/-- `NO_DELIM` is not the scan's to answer. -/
theorem slipDecBody_ne_noDelim (e : Bool) (body : List Byte) : slipDecBody e body ≠ .error .noDelim := by
  induction body generalizing e with
  | nil => cases e <;> nofun
  | cons b rest ih =>
    rw [slipDecBody]
    split
    · nofun
    · split
      · nofun
      · exact ih _
      · split
        · nofun
        · next r hr =>
          intro hc
          cases hc
          exact ih _ hr

/-- Without delimiters at both ends the try-decode fails; with them it is the scan of what is between. -/
theorem slipDecFrame_cases (f : List Byte) :
    ((f.length < 2 ∨ f.head? ≠ some slipEND ∨ f.getLast? ≠ some slipEND) ∧ slipDecFrame f = .error .noDelim) ∨
    ∃ body, f = slipEND :: (body ++ [slipEND]) ∧ slipDecFrame f = slipDecBody false body := by
  by_cases h : f.length < 2 ∨ f.head? ≠ some slipEND ∨ f.getLast? ≠ some slipEND
  · exact .inl ⟨h, if_pos h⟩
  · simp only [not_or, not_lt, not_not] at h
    obtain ⟨hlen, hhead, hlast⟩ := h
    obtain ⟨tl, rfl⟩ := List.head?_eq_some_iff.mp hhead
    obtain ⟨init, hinit⟩ := List.getLast?_eq_some_iff.mp hlast
    cases init with
    | nil =>
      cases hinit
      simp at hlen
    | cons b body =>
      cases hinit
      exact .inr ⟨body, rfl, slipDecFrame_delimited body⟩

/-- R167, as the functions say it. -/
theorem slipDecFrame_slipEncFrame (p : List Byte) : slipDecFrame (slipEncFrame p) = .ok p := by
  have h := slipDecBody_stuff p []
  rw [List.append_nil] at h
  rw [slipEncFrame_eq, slipDecFrame_delimited, h]
  simp [slipDecBody]

theorem slipDecFrame_eq_ok_iff (f p : List Byte) : slipDecFrame f = .ok p ↔ f = slipEncFrame p := by
  refine ⟨fun h => ?_, fun h => h ▸ slipDecFrame_slipEncFrame p⟩
  obtain ⟨-, hf⟩ | ⟨body, rfl, hf⟩ := slipDecFrame_cases f
  · cases hf.symm.trans h
  · have hbody : body = stuff p := slipDecBody_ok (hf.symm.trans h)
    rw [hbody, slipEncFrame_eq]

theorem slipDecFrame_eq_noDelim_iff (f : List Byte) : slipDecFrame f = .error .noDelim ↔
    (f.length < 2 ∨ f.head? ≠ some slipEND ∨ f.getLast? ≠ some slipEND) := by
  refine ⟨fun h => ?_, fun h => if_pos h⟩
  obtain ⟨hd, -⟩ | ⟨body, -, hf⟩ := slipDecFrame_cases f
  · exact hd
  · exact absurd (hf.symm.trans h) (slipDecBody_ne_noDelim false body)

/-- Where the scan fails behind escaped bytes, the frame fails for that reason. -/
theorem slipDecFrame_error {rest : List Byte} {r : DecFail} (h : slipDecBody false rest = .error r) (p : List Byte) :
    slipDecFrame ([slipEND] ++ stuff p ++ rest ++ [slipEND]) = .error r := by
  rw [List.append_assoc [slipEND], List.append_assoc, List.singleton_append, slipDecFrame_delimited,
    slipDecBody_stuff, h]

/-- The scan fails at an unescaped delimiter. -/
theorem slipDecBody_innerEnd (rest : List Byte) : slipDecBody false (slipEND :: rest) = .error .innerEnd := rfl

/-- The scan fails at a byte that completes no escape. -/
theorem slipDecBody_badEscape {b : Byte} (h : b ≠ slipESCEND) (h' : b ≠ slipESCESC) (rest : List Byte) :
    slipDecBody false (slipESC :: b :: rest) = .error .escErr := by
  change slipDecBody true (b :: rest) = .error .escErr
  simp [slipDecBody, unstuff_bad h h']

/-- Settles O45: the frames by the inversion of the scan, the other outcomes by where it fails. -/
theorem slipDecodeCaseByCase : Obligations.SlipDecodeCaseByCase := by
  refine ⟨slipDecFrame_eq_ok_iff, slipDecFrame_eq_noDelim_iff, fun p rest => ?_, fun p rest b h h' => ?_, fun p => ?_⟩
  · rw [List.append_assoc ([0xC0] ++ stuff p)]
    exact slipDecFrame_error (slipDecBody_innerEnd rest) p
  · rw [List.append_assoc ([0xC0] ++ stuff p)]
    exact slipDecFrame_error (slipDecBody_badEscape h h' rest) p
  · exact slipDecFrame_error (rest := [slipESC]) rfl p

/-! ### The sync pattern -/

/-- Settles O51: only six bytes can match, and five of them are compared. -/
theorem syncMatchIsTheSixPositions : Obligations.SyncMatchIsTheSixPositions := by
  intro w
  refine ⟨fun h => ?_, fun ⟨x, hw⟩ => hw ▸ rfl⟩
  unfold syncMatch at h
  split at h
  · next w0 w1 x w3 w4 w5 =>
    simp only [Bool.and_eq_true, decide_eq_true_eq] at h
    obtain ⟨⟨⟨⟨rfl, rfl⟩, rfl⟩, rfl⟩, rfl⟩ := h
    exact ⟨x, rfl⟩
  · cases h

end Sys2Proof.Machine

/-! PROOFS. The SLIP-Escaped operations (43_slip.md R163, R166, R168) with their refusals. -/

namespace Sys2Proof.Machine

open Sys2Proof.Claims

theorem exec_slipEnc (p : List Byte) (s : State) :
    exec (.slipEnc p) s = takeRequest (some .slip) (slipEncInRange p s) (fun s => s.emit (slipEncFrame p)) s := rfl

theorem exec_slipDec (f : List Byte) (s : State) :
    exec (.slipDec f) s =
      takeRequest (some .slip) (slipDecInRange f s) (fun s => s.respond (.accept (slipDecAnswer f))) s := rfl

theorem exec_slipRx (n tmo : Nat) (s : State) :
    exec (.slipRx n tmo) s =
      takeRequest (some .slip) (slipRxInRange n s) (fun s => s.startReceive .search n tmo) s := rfl

theorem slipDecAnswer_ok {f p : List Byte} (h : slipDecFrame f = .ok p) : slipDecAnswer f = .decoded p := by
  rw [slipDecAnswer, h]

theorem slipDecAnswer_error {f : List Byte} {r : DecFail} (h : slipDecFrame f = .error r) :
    slipDecAnswer f = .decFail r := by
  rw [slipDecAnswer, h]

/-- Settles O44, by the tests of R120: in range the frame of R162 is emitted. -/
theorem slipEncEmitsTheStuffedFrame : Obligations.SlipEncEmitsTheStuffedFrame := by
  intro s p
  refine ⟨fun h hd hr => ?_, busyOrWrongDialect_of_takeRequest (exec_slipEnc p s), fun h hd hr => ?_⟩
  · exact exec_performs (exec_slipEnc p s) h hd (decide_eq_true hr)
  · exact answersRefuse_range (exec_slipEnc p s) h hd (decide_eq_false (Nat.not_le.mpr hr))

/-- Settles O46, by the tests of R120: in range the try-decode's outcome is the answer. -/
theorem slipDecAnswersTheTryDecode : Obligations.SlipDecAnswersTheTryDecode := by
  intro s f
  refine ⟨fun h hd hr => ?_, busyOrWrongDialect_of_takeRequest (exec_slipDec f s), fun h hd hr => ?_⟩
  · have hexec : exec (.slipDec f) s = .next (s.respond (.accept (slipDecAnswer f))) :=
      exec_performs (exec_slipDec f s) h hd (decide_eq_true hr)
    exact ⟨fun p hp => slipDecAnswer_ok hp ▸ hexec, fun r hf => slipDecAnswer_error hf ▸ hexec⟩
  · exact answersRefuse_range (exec_slipDec f s) h hd (decide_eq_false (Nat.not_le.mpr hr))

/-- Settles O48, by the tests of R120: in range the operation starts in `SEARCH`. -/
theorem slipRxStartsSearching : Obligations.SlipRxStartsSearching := by
  intro s n tmo
  refine ⟨fun h hd hn hcap => ?_, busyOrWrongDialect_of_takeRequest (exec_slipRx n tmo s), fun h hd hr => ?_⟩
  · exact exec_performs (exec_slipRx n tmo s) h hd (decide_eq_true ⟨hn, hcap⟩)
  · exact answersRefuse_range (exec_slipRx n tmo s) h hd (decide_eq_false hr)

end Sys2Proof.Machine

/-! PROOFS. The byte step of a running `SLIP.RX`: de-stuffing (43_slip.md R164, R169), then the search and the collection
(R170). -/

namespace Sys2Proof.Machine

open Sys2Proof.Claims

variable {s t : State} {e e' : Bool} {b d : Byte}

/-! ### Stage A -/

theorem finish_eq_finished (s : State) (code : Status) : s.finish code = finished s code := rfl

theorem writeEsc_of_eq (h : s.esc = e) : s.writeEsc e = s := by
  subst h
  rfl

theorem consume_slip (b : Byte) (hd : s.params.dialect = .slip) : s.consume b = s.consumeSlip b := by
  rw [State.consume, hd]

/-! What a byte does to the operation, by what de-stuffing it gives. -/

theorem consumeSlip_of_nothing (he : s.esc = e) (h : unstuff e b = (e', .nothing)) :
    s.consumeSlip b = s.writeEsc e' := by
  rw [State.consumeSlip, he, h]

theorem consumeSlip_of_byte (he : s.esc = e) (h : unstuff e b = (e', .byte d)) :
    s.consumeSlip b = (s.writeEsc e').deliver d := by
  rw [State.consumeSlip, he, h]

theorem consumeSlip_of_error (he : s.esc = e) (h : unstuff e b = (e', .error)) :
    s.consumeSlip b = finished (s.writeEsc e') .escErr := by
  rw [State.consumeSlip, he, h, ← finish_eq_finished]

/-- A delimiter outside an escape changes nothing. -/
theorem consumeSlip_delimiter (he : s.esc = false) (hb : b = slipEND) : s.consumeSlip b = s := by
  subst hb
  rw [consumeSlip_of_nothing he unstuff_end, writeEsc_of_eq he]

/-- A literal is delivered and leaves the flag as it is. -/
theorem consumeSlip_literal (he : s.esc = false) (hend : b ≠ slipEND) (hesc : b ≠ slipESC) :
    s.consumeSlip b = s.deliver b := by
  rw [consumeSlip_of_byte he (unstuff_literal hend hesc), writeEsc_of_eq he]

/-- The block's turn of a running `SLIP.RX` takes its move and the head of `RXS`, and consumes that byte by R169. -/
theorem step_block_slip {more : List Byte} {rest : List Move} (hd : s.params.dialect = .slip)
    (h : s.rxphase ≠ .idle) (hc : s.cancel = false) (hx : s.rxs = b :: more) (hs : s.sched = .block :: rest) :
    step s = .next (State.consumeSlip { s with rxs := more, sched := rest } b) := by
  have hconsume : blockTurn s.dropMove = s.dropMove.rxsPop.consumeSlip b :=
    (rxStep_byte (s := s.dropMove) h hc hx).trans (consume_slip b hd)
  rw [step_block hs, hconsume, dropMove_rxsPop_eq hx hs]

/-- Settles O49, by the escape flag and by what the byte gives after de-stuffing. -/
theorem slipByteStepDestuffs : Obligations.SlipByteStepDestuffs := by
  intro s b more rest hd h hc hx hs
  rw [step_block_slip hd h hc hx hs]
  refine ⟨fun he hb => ?_, fun he hb => ?_, fun he hend hesc => ?_, fun he hb => ?_, fun he hb => ?_,
    fun he hend hesc => ?_⟩ <;> apply congrArg
  · exact consumeSlip_delimiter he hb
  · exact consumeSlip_of_nothing he (hb ▸ rfl)
  · exact consumeSlip_literal he hend hesc
  · exact consumeSlip_of_byte he (hb ▸ rfl)
  · exact consumeSlip_of_byte he (hb ▸ rfl)
  · exact consumeSlip_of_error he (unstuff_bad hend hesc)

/-! ### Stage B -/

/-! The two tests of R170, by what they find. -/

theorem searchTest_of_not (h : ¬ (s.rxphase = .search ∧ s.rxbuf.length = 6)) : searchTest s = s := if_neg h

theorem searchTest_of_mismatch (hp : s.rxphase = .search) (hl : s.rxbuf.length = 6) (hm : syncMatch s.rxbuf = false) :
    searchTest s = s.writeRxbuf (s.rxbuf.drop 1) :=
  (if_pos ⟨hp, hl⟩).trans (if_neg (Bool.eq_false_iff.mp hm))

theorem searchTest_of_match (hp : s.rxphase = .search) (hl : s.rxbuf.length = 6) (hm : syncMatch s.rxbuf = true) :
    searchTest s = s.writePhase .collect :=
  (if_pos ⟨hp, hl⟩).trans (if_pos hm)

theorem completionTest_of_not (h : ¬ (s.rxphase = .collect ∧ s.rxbuf.length = s.explen)) : completionTest s = s :=
  if_neg h

/-- The last byte ends the collection with the whole buffer. -/
theorem completionTest_of_last (hp : s.rxphase = .collect) (hl : s.rxbuf.length = s.explen) :
    completionTest s = { s with rxphase := .idle, status := .ok, rsp := s.rsp ++ [.done .ok s.rxbuf] } := by
  rw [completionTest, if_pos ⟨hp, hl⟩, State.finish, finishedBuffer_of_not_search (by simp [hp])]
  rfl

/-- `deliver` reads the two tests in order. -/
theorem deliver_eq (hsearch : searchTest (s.writeRxbuf (s.rxbuf ++ [d])) = t) : s.deliver d = completionTest t := by
  rw [State.deliver, hsearch]

/-- Settles O50, by the outcome of the search test and then that of the completion test. -/
theorem deliverSearchesThenCollects : Obligations.DeliverSearchesThenCollects := by
  intro s d
  have hlen : (s.rxbuf ++ [d]).length = s.rxbuf.length + 1 := List.length_append
  rw [← hlen]
  refine ⟨fun hp hl => ?_, fun hp hl hm => ?_, fun hp hl hm he => ?_, fun hp hl hm he => ?_, fun hp hl => ?_,
    fun hp hl => ?_⟩
  · rw [deliver_eq (searchTest_of_not fun h => hl h.2)]
    exact completionTest_of_not (by simp [hp])
  · rw [deliver_eq (searchTest_of_mismatch hp hl hm)]
    exact completionTest_of_not (by simp [hp])
  · rw [deliver_eq (searchTest_of_match hp hl hm)]
    exact completionTest_of_not fun h => he (h.2.symm.trans hl)
  · rw [deliver_eq (searchTest_of_match hp hl hm)]
    exact completionTest_of_last rfl (hl.trans he.symm)
  · rw [deliver_eq (searchTest_of_not (by simp [hp]))]
    exact completionTest_of_not fun h => hl h.2
  · rw [deliver_eq (searchTest_of_not (by simp [hp]))]
    exact completionTest_of_last hp hl

end Sys2Proof.Machine

/-! PROOFS. The block's reset (70_reset_and_hazards.md R230, R232). -/

namespace Sys2Proof.Machine

/-- Settles O1: a reset move drops itself from the schedule, then resets the block; what came with it plays no part. -/
theorem resetMoveGivesResetRegisters : Obligations.ResetMoveGivesResetRegisters := by
  intro s q rest hs
  rw [step_reset hs, dropMove_eq hs]
  rfl

end Sys2Proof.Machine

/-! PROOFS. The Header-Framed parser undoes the encoders, and accepts nothing else (42_header_framed.md R136, R137). -/

namespace Sys2Proof.Machine

open Sys2Proof.Claims

variable {s p : List Byte} {opc : Byte}

/-! ### The length fields -/

theorem lo8_toNat {n : Nat} (h : n < 256) : (lo8 n).toNat = n := Nat.mod_eq_of_lt h

/-- The two bytes of a long form's length field make the length. -/
theorem lo8_hi8_toNat {n : Nat} (h : n < 65536) : (lo8 n).toNat + 256 * (hi8 n).toNat = n := by
  simp only [lo8, hi8, BitVec.toNat_ofNat]
  omega

theorem lo8_of_toNat_eq {b : Byte} {n : Nat} (h : b.toNat = n) : lo8 n = b := by
  simp [lo8, ← h]

/-- Two bytes are the length field of the number they make. -/
theorem lo8_hi8_of_toNat_eq {b c : Byte} {n : Nat} (h : b.toNat + 256 * c.toNat = n) : lo8 n = b ∧ hi8 n = c := by
  have hb := b.isLt
  have hc := c.isLt
  constructor <;> apply BitVec.eq_of_toNat_eq <;> simp only [lo8, hi8, BitVec.toNat_ofNat] <;> omega

/-! ### The parser on each form -/

/-- Behind the preamble and the extension the length field decides. -/
theorem hfParse_long (b5 b6 opc : Byte) (p : List Byte) :
    hfParse (hfPre ++ hfExt ++ b5 :: b6 :: opc :: p) =
      if b5.toNat + 256 * b6.toNat = 1 + p.length then some (HfFrame.long opc p) else none := by
  have hlen : (hfPre ++ hfExt ++ b5 :: b6 :: opc :: p).length = 8 + p.length := by simp [hfPre, hfExt]; omega
  change (if _ ∨ (hfPre ++ hfExt ++ b5 :: b6 :: opc :: p).length ≠ _ then none else some (HfFrame.long opc p)) = _
  rw [hlen, ← ite_not]
  exact if_congr (by omega) rfl rfl

/-- Behind the preamble without the extension the length byte decides. -/
theorem hfParse_short {b3 : Byte} (h : [b3, opc] ≠ hfExt) :
    hfParse (hfPre ++ b3 :: opc :: p) = if b3.toNat = 1 + p.length then some (HfFrame.short opc p) else none := by
  have hlen : (hfPre ++ b3 :: opc :: p).length = 5 + p.length := by simp [hfPre]; omega
  change (if [b3, opc] = hfExt then _ else
    if b3.toNat = 0 ∨ (hfPre ++ b3 :: opc :: p).length ≠ 4 + b3.toNat then none
    else some (HfFrame.short opc p)) = _
  rw [if_neg h, hlen, ← ite_not]
  exact if_congr (by omega) rfl rfl

/-- All that the parser accepts. -/
theorem hfParse_cases {fr : HfFrame} (h : hfParse s = some fr) :
    (∃ b5 b6 opc p, s = hfPre ++ hfExt ++ b5 :: b6 :: opc :: p ∧ b5.toNat + 256 * b6.toNat = 1 + p.length ∧
      fr = .long opc p) ∨
    (∃ b3 opc p, s = hfPre ++ b3 :: opc :: p ∧ [b3, opc] ≠ hfExt ∧ b3.toNat = 1 + p.length ∧ fr = .short opc p) := by
  have hs := h
  unfold hfParse at hs
  split at hs
  · next b0 b1 b2 b3 b4 rest =>
    split at hs
    · next hpre =>
      have hcut : b0 :: b1 :: b2 :: b3 :: b4 :: rest = hfPre ++ b3 :: b4 :: rest := by rw [← hpre]; rfl
      split at hs
      · next hext =>
        split at hs
        · next b5 b6 opc p =>
          have hcut' : hfPre ++ b3 :: b4 :: b5 :: b6 :: opc :: p = hfPre ++ hfExt ++ b5 :: b6 :: opc :: p := by
            rw [← hext]; rfl
          rw [hcut, hcut', hfParse_long, Option.ite_none_right_eq_some] at h
          exact .inl ⟨b5, b6, opc, p, hcut.trans hcut', h.1, (Option.some.inj h.2).symm⟩
        · cases hs
      · next hext =>
        rw [hcut, hfParse_short hext, Option.ite_none_right_eq_some] at h
        exact .inr ⟨b3, b4, rest, hcut, hext, h.1, (Option.some.inj h.2).symm⟩
    · cases hs
  · cases hs

/-! ### Frames -/

theorem hfShortFrame_eq (opc : Byte) (p : List Byte) :
    hfShortFrame opc p = hfPre ++ lo8 (1 + p.length) :: opc :: p := rfl

theorem hfLongFrame_cons_eq (opc : Byte) (p : List Byte) :
    hfLongFrame opc p = hfPre ++ hfExt ++ lo8 (1 + p.length) :: hi8 (1 + p.length) :: opc :: p := rfl

theorem hfParse_hfLongFrame (opc : Byte) (p : List Byte) (h : p.length ≤ 65534) :
    hfParse (hfLongFrame opc p) = some (.long opc p) := by
  rw [hfLongFrame_cons_eq, hfParse_long, if_pos (lo8_hi8_toNat (by omega))]

/-- Only the short frame with opcode `F4` and 254 payload bytes begins like a long one. -/
theorem hfShortFrame_not_extended (h : p.length ≤ 254) (hx : ¬ (p.length = 254 ∧ opc = 0xF4)) :
    [lo8 (1 + p.length), opc] ≠ hfExt := by
  intro he
  obtain ⟨hlo, hopc⟩ : lo8 (1 + p.length) = 0xFF ∧ opc = 0xF4 := by simpa [hfExt] using he
  have hlen : 1 + p.length = 255 := by rw [← lo8_toNat (show 1 + p.length < 256 by omega), hlo]; rfl
  exact hx ⟨by omega, hopc⟩

theorem hfParse_hfShortFrame (opc : Byte) (p : List Byte) (h : p.length ≤ 254)
    (hx : ¬ (p.length = 254 ∧ opc = 0xF4)) : hfParse (hfShortFrame opc p) = some (.short opc p) := by
  rw [hfShortFrame_eq, hfParse_short (hfShortFrame_not_extended h hx), if_pos (lo8_toNat (by omega))]

/-- That frame reads as a long one whose length field is its first two payload bytes. -/
theorem hfParse_hfShortFrame_extended {a b c : Byte} {q : List Byte} (h : (a :: b :: c :: q).length = 254) :
    hfParse (hfShortFrame 0xF4 (a :: b :: c :: q)) =
      if a.toNat + 256 * b.toNat = 252 then some (.long c q) else none := by
  have hq : 1 + q.length = 252 := by simp at h; omega
  have hframe : hfShortFrame 0xF4 (a :: b :: c :: q) = hfPre ++ hfExt ++ a :: b :: c :: q := by
    rw [hfShortFrame_eq, h]; rfl
  rw [hframe, hfParse_long, hq]

/-- Settles O40: the parser on each form, with the length field the encoder writes; the encoders end in opcode and
payload. -/
theorem hfParseUndoesEncode : Obligations.HfParseUndoesEncode := by
  refine ⟨hfParse_hfLongFrame, hfParse_hfShortFrame, fun _ _ _ _ => hfParse_hfShortFrame_extended,
    fun opc opc' p p' h => ?_, fun opc opc' p p' h => ?_⟩
  · simp only [hfShortFrame_eq, List.append_cancel_left_eq, List.cons.injEq] at h
    exact h.2
  · simp only [hfLongFrame_cons_eq, List.append_cancel_left_eq, List.cons.injEq] at h
    exact h.2.2

/-- Settles O41, by the two forms the parser accepts. -/
theorem hfParseAcceptsOnlyFrames : Obligations.HfParseAcceptsOnlyFrames := by
  intro s fr h
  obtain ⟨b5, b6, opc, p, rfl, hlen, rfl⟩ | ⟨b3, opc, p, rfl, hext, hlen, rfl⟩ := hfParse_cases h
  · obtain ⟨hlo, hhi⟩ := lo8_hi8_of_toNat_eq hlen
    have hb5 := b5.isLt
    have hb6 := b6.isLt
    refine ⟨?_, decide_eq_true (show p.length ≤ 65534 by omega), ?_⟩
    · change hfLongFrame opc p = _
      rw [hfLongFrame_cons_eq, hlo, hhi]
    · change 7 + (b5.toNat + 256 * b6.toNat) = _
      rw [hlen]
      simp [hfPre, hfExt]
      omega
  · have hb3 := b3.isLt
    refine ⟨?_, decide_eq_true (show p.length ≤ 254 by omega), ?_⟩
    · change hfShortFrame opc p = _
      rw [hfShortFrame_eq, lo8_of_toNat_eq hlen]
    · change (if b3 = 0xFF ∧ opc = 0xF4 then _ else 4 + b3.toNat) = _
      rw [if_neg (by simpa [hfExt] using hext), hlen]
      simp [hfPre]
      omega

end Sys2Proof.Machine

/-! PROOFS. The decoder and the encoder undo each other (30_encoding.md R71, R72, R74 to R79), a request's length (R82),
and the operation map. -/

namespace Sys2Proof.Machine

open Sys2Proof.Claims

variable {s rest : List Byte} {i : Instr} {o : Op}

/-! ### A request read off the front -/

/-- An `op` byte of the map leaves its operands to be read. -/
theorem decodeRequest_opCode (o : Op) (s : List Byte) : decodeRequest (opCode o :: s) = decodeOperands o s := by
  simp [decodeRequest, opOf_opCode]

/-- A well-formed request is read off the front, whatever follows it. -/
theorem decodeRequest_encode (hw : i.wellFormed = true) (hi : i.format = .req) (rest : List Byte) :
    decodeRequest (encode i ++ rest) = .ok (i, rest) := by
  cases i with
  | crcInit => exact decodeRequest_opCode .crcInit rest
  | crcUpd b => exact decodeRequest_opCode .crcUpd (b :: rest)
  | crcGet => exact decodeRequest_opCode .crcGet rest
  | crcCmp v =>
    refine (decodeRequest_opCode .crcCmp (le32Bytes v.toNat ++ rest)).trans ?_
    simp [decodeOperands, takeLe32_le32Bytes v.isLt, Except.map]
  | hfEncs opc p =>
    refine (decodeRequest_opCode .hfEncs (opc :: (bytesOperand p ++ rest))).trans ?_
    simp [decodeOperands, takeOpcodeBytes_bytesOperand (of_decide_eq_true hw), Except.map]
  | hfEncl opc p =>
    refine (decodeRequest_opCode .hfEncl (opc :: (bytesOperand p ++ rest))).trans ?_
    simp [decodeOperands, takeOpcodeBytes_bytesOperand (of_decide_eq_true hw), Except.map]
  | hfRx n tmo =>
    obtain ⟨hn, htmo⟩ : fits32 n ∧ fits32 tmo := of_decide_eq_true hw
    refine (decodeRequest_opCode .hfRx (le32Bytes n ++ (le32Bytes tmo ++ rest))).trans ?_
    simp [decodeOperands, takeLengthTimeout_le32Bytes hn htmo, Except.map]
  | slipEnc p =>
    refine (decodeRequest_opCode .slipEnc (bytesOperand p ++ rest)).trans ?_
    simp [decodeOperands, takeBytes_bytesOperand (of_decide_eq_true hw), Except.map]
  | slipDec f =>
    refine (decodeRequest_opCode .slipDec (bytesOperand f ++ rest)).trans ?_
    simp [decodeOperands, takeBytes_bytesOperand (of_decide_eq_true hw), Except.map]
  | slipRx n tmo =>
    obtain ⟨hn, htmo⟩ : fits32 n ∧ fits32 tmo := of_decide_eq_true hw
    refine (decodeRequest_opCode .slipRx (le32Bytes n ++ (le32Bytes tmo ++ rest))).trans ?_
    simp [decodeOperands, takeLengthTimeout_le32Bytes hn htmo, Except.map]
  | hfShort | hfLong | slipEnd | slipEscEnd | slipEscEsc | slipLiteral | slipFrame | slipSync => cases hi

theorem wholeItem_ok : wholeItem (.ok (i, [])) = .ok i := rfl

theorem decode_req_encode (hw : i.wellFormed = true) (hi : i.format = .req) : decode .req (encode i) = .ok i := by
  have h := decodeRequest_encode hw hi []
  rw [List.append_nil] at h
  rw [decode, h, wholeItem_ok]

theorem decode_slipLiteral {b : Byte} (h : b ≠ slipEND) (h' : b ≠ slipESC) :
    decode .slipSym [b] = .ok (.slipLiteral b) := by
  simp [decode, decodeSymbol, h, h', wholeItem]

/-- Every well-formed instruction but the one short frame that begins like a long one decodes from its encoding. -/
theorem decode_encode (hw : i.wellFormed = true) (hx : ∀ p, i = .hfShort 0xF4 p → p.length ≠ 254) :
    decode i.format (encode i) = .ok i := by
  cases i with
  | crcInit | crcUpd | crcGet | crcCmp | hfEncs | hfEncl | hfRx | slipEnc | slipDec | slipRx =>
    exact decode_req_encode hw rfl
  | hfShort opc p =>
    have hparse : hfParse (hfShortFrame opc p) = some (.short opc p) :=
      hfParse_hfShortFrame opc p (of_decide_eq_true hw) fun ⟨hlen, hopc⟩ => hx p (by rw [hopc]) hlen
    simp [Instr.format, decode, decodeHf, encode, hparse]
  | hfLong opc p =>
    simp [Instr.format, decode, decodeHf, encode, hfParse_hfLongFrame opc p (of_decide_eq_true hw)]
  | slipEnd | slipEscEnd | slipEscEsc => rfl
  | slipLiteral b =>
    obtain ⟨h, h'⟩ : b ≠ slipEND ∧ b ≠ slipESC := of_decide_eq_true hw
    exact decode_slipLiteral h h'
  | slipFrame p => simp [Instr.format, decode, decodeSlipFrame, encode, slipDecFrame_slipEncFrame]
  | slipSync x => rfl

/-- Settles O12, format by format. -/
theorem decodeOfEncodeIsIdentity : Obligations.DecodeOfEncodeIsIdentity :=
  ⟨fun _ => decode_encode, fun _ rest hw hi => decodeRequest_encode hw hi rest⟩

/-! ### What was read is the encoding -/

/-- A mapped answer comes from an answer. -/
theorem exceptMap_ok {α β ε : Type} {f : α → β} {r : Except ε α} {b : β} (h : r.map f = .ok b) :
    ∃ a, r = .ok a ∧ f a = b := by
  cases r with
  | error e => cases h
  | ok a => exact ⟨a, rfl, Except.ok.inj h⟩

theorem decodeOperands_ok (h : decodeOperands o s = .ok (i, rest)) :
    i.format = .req ∧ i.wellFormed = true ∧ opCode o :: s = encode i ++ rest := by
  cases o with
  | crcInit | crcGet => cases h; exact ⟨rfl, rfl, rfl⟩
  | crcUpd =>
    cases s with
    | nil => cases h
    | cons b s => cases h; exact ⟨rfl, rfl, rfl⟩
  | crcCmp =>
    obtain ⟨⟨n, r⟩, hn, heq⟩ := exceptMap_ok h
    cases heq
    obtain ⟨hlt, rfl⟩ := takeLe32_ok hn
    have hval : (BitVec.ofNat 32 n).toNat = n := Nat.mod_eq_of_lt hlt
    exact ⟨rfl, rfl, by rw [encode, hval]; rfl⟩
  | hfEncs | hfEncl =>
    obtain ⟨⟨⟨opc, p⟩, r⟩, hp, heq⟩ := exceptMap_ok h
    cases heq
    obtain ⟨hlt, rfl⟩ := takeOpcodeBytes_ok hp
    exact ⟨rfl, decide_eq_true hlt, rfl⟩
  | hfRx | slipRx =>
    obtain ⟨⟨⟨n, tmo⟩, r⟩, hp, heq⟩ := exceptMap_ok h
    cases heq
    obtain ⟨hn, htmo, rfl⟩ := takeLengthTimeout_ok hp
    exact ⟨rfl, decide_eq_true ⟨hn, htmo⟩, rfl⟩
  | slipEnc | slipDec =>
    obtain ⟨⟨p, r⟩, hp, heq⟩ := exceptMap_ok h
    cases heq
    obtain ⟨hlt, rfl⟩ := takeBytes_ok hp
    exact ⟨rfl, decide_eq_true hlt, rfl⟩

theorem decodeRequest_ok (h : decodeRequest s = .ok (i, rest)) :
    i.format = .req ∧ i.wellFormed = true ∧ s = encode i ++ rest := by
  unfold decodeRequest at h
  split at h
  · cases h
  · split at h
    · cases h
    · next hop =>
      rw [opOf_code hop]
      exact decodeOperands_ok h

theorem decodeSymbol_ok (h : decodeSymbol s = .ok (i, rest)) :
    i.format = .slipSym ∧ i.wellFormed = true ∧ s = encode i ++ rest := by
  unfold decodeSymbol at h
  split at h
  · cases h
  · next b s =>
    split at h
    · next hb => cases h; subst hb; exact ⟨rfl, rfl, rfl⟩
    · next hend =>
      split at h
      · next hb =>
        subst hb
        split at h
        · cases h
        · next c s =>
          split at h
          · next hc => cases h; subst hc; exact ⟨rfl, rfl, rfl⟩
          · split at h
            · next hc => cases h; subst hc; exact ⟨rfl, rfl, rfl⟩
            · cases h
      · next hesc => cases h; exact ⟨rfl, decide_eq_true ⟨hend, hesc⟩, rfl⟩

/-- A whole item is an item with nothing behind it. -/
theorem wholeItem_eq_ok {r : Except DecodeError (Instr × List Byte)} (h : wholeItem r = .ok i) : r = .ok (i, []) := by
  unfold wholeItem at h
  split at h
  · cases h
  · cases h; rfl
  · cases h

/-- The decoder of Header-Framed frames is the parser, its answer seen as an instruction. -/
theorem decodeHf_eq_ok (h : decodeHf s = .ok i) : ∃ fr, hfParse s = some fr ∧ hfFrameInstr fr = i := by
  unfold decodeHf at h
  split at h
  · cases h
  · next hp => cases h; exact ⟨_, hp, rfl⟩
  · next hp => cases h; exact ⟨_, hp, rfl⟩

theorem hfFrameInstr_format (fr : HfFrame) : (hfFrameInstr fr).format = .hf := by cases fr <;> rfl

theorem decodeHf_ok (h : decodeHf s = .ok i) : i.format = .hf ∧ i.wellFormed = true ∧ encode i = s := by
  obtain ⟨fr, hp, rfl⟩ := decodeHf_eq_ok h
  obtain ⟨henc, hw, -⟩ := hfParseAcceptsOnlyFrames s fr hp
  exact ⟨hfFrameInstr_format fr, hw, henc⟩

theorem decodeSlipFrame_ok (h : decodeSlipFrame s = .ok i) :
    i.format = .slipFrame ∧ i.wellFormed = true ∧ encode i = s := by
  unfold decodeSlipFrame at h
  split at h
  · next p hp => cases h; exact ⟨rfl, rfl, ((slipDecFrame_eq_ok_iff s p).mp hp).symm⟩
  · cases h

theorem decodeSync_ok (h : decodeSync s = .ok i) : i.format = .sync ∧ i.wellFormed = true ∧ encode i = s := by
  unfold decodeSync at h
  split at h
  · next hm =>
    cases h
    obtain ⟨x, rfl⟩ := (syncMatchIsTheSixPositions s).mp hm
    exact ⟨rfl, rfl, rfl⟩
  · cases h

/-- Settles O13, format by format. -/
theorem decodedBytesAreTheEncoding : Obligations.DecodedBytesAreTheEncoding := by
  intro f bytes i h
  cases f with
  | req =>
    obtain ⟨hf, hw, hs⟩ := decodeRequest_ok (wholeItem_eq_ok h)
    exact ⟨hf, hw, by rw [hs, List.append_nil]⟩
  | slipSym =>
    obtain ⟨hf, hw, hs⟩ := decodeSymbol_ok (wholeItem_eq_ok h)
    exact ⟨hf, hw, by rw [hs, List.append_nil]⟩
  | hf => exact decodeHf_ok h
  | slipFrame => exact decodeSlipFrame_ok h
  | sync => exact decodeSync_ok h

/-! ### A request's length -/

theorem bytesOperand_length (p : List Byte) : (bytesOperand p).length = 4 + p.length := by
  simp [bytesOperand, le32Bytes]
  omega

/-- Settles O14, by the operation: where the request has a payload, its length field is the payload's length. -/
theorem requestLengthFollowsFromItsFront : Obligations.RequestLengthFollowsFromItsFront := by
  intro i rest hw hi
  cases i with
  | crcInit | crcUpd | crcGet | crcCmp | hfRx | slipRx => rfl
  | hfEncs opc p | hfEncl opc p =>
    have hlen : fits32 p.length := of_decide_eq_true hw
    refine (congrArg (6 + ·) (le32_le32Bytes hlen)).trans ?_
    simp [encode, bytesOperand_length]
    omega
  | slipEnc p | slipDec p =>
    have hlen : fits32 p.length := of_decide_eq_true hw
    refine (congrArg (5 + ·) (le32_le32Bytes hlen)).trans ?_
    simp [encode, bytesOperand_length]
    omega
  | hfShort | hfLong | slipEnd | slipEscEnd | slipEscEsc | slipLiteral | slipFrame | slipSync => cases hi

/-! ### The operation map and words written out -/

theorem mem_operationMap_iff (b : Byte) (o : Op) : (b, o) ∈ operationMap ↔ b = opCode o := by
  cases o <;> simp [operationMap, opCode]

/-- Settles O10: an `op` names an operation exactly if it is that operation's code. -/
theorem operationMapIsTheTenCodes : Obligations.OperationMapIsTheTenCodes := by
  refine ⟨fun b o => ?_, rfl, rfl⟩
  rw [mem_operationMap_iff]
  exact ⟨opOf_code, fun h => h ▸ opOf_opCode o⟩

/-- Settles O11, by running the decoder on each word. -/
theorem writtenOutWordsDecode : Obligations.WrittenOutWordsDecode :=
  ⟨rfl, rfl, rfl, rfl, rfl, rfl, rfl, rfl, rfl, rfl, rfl, rfl, rfl, rfl, rfl, rfl, rfl, rfl, rfl⟩

end Sys2Proof.Machine

/-! PROOFS. What a step can do to the state, whichever agent moves; from it the invariant (10_state.md R38), the access
matrix (R28), the streams (20_memory.md R58) and the responses that end a receive operation (41_common.md R124). -/

namespace Sys2Proof.Machine

open Sys2Proof.Claims

variable {s t : State} {i : Instr}

/-! ### The effects of a step -/

/-- `StepCase` by what happens to the state: only the block's turn takes a byte off `RXS`. -/
inductive StepEffect (s t : State) : Prop where
  | receives (h : ReceiveCase s.dropMove t) (hb : t.rxs ≠ s.rxs → blocksTurn s) (hr : ¬ resets s)
  | resets (h : resets s) (ht : t = s.dropMove.resetBlock)
  | runs (i : Instr) (h : runs s i) (ht : ExecCase s.dropMove t i)
  | refused (r : RefuseReason) (ht : t = s.dropMove.refuse r)
  | rx (d : List Byte) (ht : t = s.dropMove.rxsAppend d)
  | txTake (n : Nat) (rest : List Move) (h : s.sched = .txTake n :: rest) (ht : t = s.dropMove.txsTake n)
  | cancel (b : Bool) (ht : t = s.dropMove.writeCancel b)

theorem dropMove_of_no_move (h : s.sched = []) : s.dropMove = s := by
  have htail : s.sched.tail = s.sched := by rw [h]; rfl
  rw [State.dropMove, htail]

theorem step_effect (h : step s = .next t) : StepEffect s t := by
  cases step_cases h with
  | turn hs ht =>
    subst ht
    have hcase : ReceiveCase s.dropMove (blockTurn s) := by
      rw [dropMove_of_no_move hs]
      exact blockTurn_receiveCase s
    exact .receives hcase (fun _ => .inl hs) (by simp [Claims.resets, hs])
  | block rest hs ht =>
    subst ht
    exact .receives (blockTurn_receiveCase _) (fun _ => .inr ⟨rest, hs⟩) (by simp [Claims.resets, hs])
  | tmo rest hs ht =>
    subst ht
    have hx : (offerTimeout s.dropMove).rxs = s.rxs := by
      obtain ht | ⟨-, -, -, ht⟩ := @offerTimeout_cases s.dropMove <;> rw [ht] <;> rfl
    exact .receives (offerTimeout_receiveCase _) (absurd hx) (by simp [Claims.resets, hs])
  | rx d _ _ ht => exact .rx d ht
  | txTake n rest hs ht => exact .txTake n rest hs ht
  | cancel b _ _ ht => exact .cancel b ht
  | reset q rest hs ht => exact .resets ⟨q, rest, hs⟩ ht
  | badOp _ _ _ _ _ _ ht => exact .refused _ ht
  | run f bytes i rest hs hd ht => exact .runs i ⟨f, bytes, rest, hs, hd⟩ (exec_cases ht)

/-! ### The parameters -/

theorem ReceiveCase.params_eq (h : ReceiveCase s t) : t.params = s.params := by
  cases h <;> subst t <;> simp

theorem ExecCase.params_eq (h : ExecCase s t i) : t.params = s.params := by
  cases h <;> subst t <;> rfl

/-- Settles O9, by the effects of a step. -/
theorem noStepChangesParameters : Obligations.NoStepChangesParameters := by
  intro s t h
  cases step_effect h with
  | receives h => exact h.params_eq
  | runs _ _ ht => exact ht.params_eq
  | resets _ ht | refused _ ht | rx _ ht | txTake _ _ _ ht | cancel _ ht => subst ht; rfl

/-! ### The invariant -/

/-- The registers and parameters the invariant speaks of. -/
def State.invariantView (s : State) : Params × RxPhase × List Byte × Nat × Status × Bool :=
  (s.params, s.rxphase, s.rxbuf, s.explen, s.status, s.esc)

theorem State.Inv.congr (h : s.Inv) (hv : t.invariantView = s.invariantView) : t.Inv := by
  simp only [State.invariantView, Prod.mk.injEq] at hv
  obtain ⟨hparams, hphase, hbuf, hlen, hstatus, hesc⟩ := hv
  constructor <;> simp only [hparams, hphase, hbuf, hlen, hstatus, hesc]
  exacts [h.params, h.search, h.collect, h.synced, h.ok, h.running, h.hfEsc, h.buffer, h.searchLength, h.explenCap,
    h.explenPos, h.escErr]

/-- The invariant of an idle block. -/
theorem inv_of_idle (hp : t.rxphase = .idle) (hparams : t.params.wf) (hesc : t.params.dialect = .hf → t.esc = false)
    (hbuf : t.rxbuf.length ≤ t.explen) (hok : t.status = .ok → t.rxbuf.length = t.explen)
    (herr : t.status = .escErr → t.params.dialect = .slip ∧ t.esc = false) (hcap : t.explen ≤ t.params.rxbufCap)
    (hpos : 1 ≤ t.explen) : t.Inv where
  params := hparams
  search h := by simp [hp] at h
  collect h := by simp [hp] at h
  synced h := by simp [hp] at h
  ok h := ⟨hp, hok h⟩
  running h := absurd hp h
  hfEsc := hesc
  buffer _ := hbuf
  searchLength h := by simp [hp] at h
  explenCap := hcap
  explenPos := hpos
  escErr := herr

/-- The invariant of a block that searches. -/
theorem inv_of_search (hp : t.rxphase = .search) (hparams : t.params.wf) (hd : t.params.dialect = .slip)
    (hbuf : t.rxbuf.length ≤ 5) (hstatus : t.status = .none) (hlen : 5 < t.explen)
    (hcap : t.explen ≤ t.params.rxbufCap) : t.Inv where
  params := hparams
  search _ := ⟨hd, hbuf⟩
  collect h := by simp [hp] at h
  synced h := by simp [hp] at h
  ok h := by simp [hstatus] at h
  running _ := hstatus
  hfEsc h := by simp [hd] at h
  buffer h := absurd hp h
  searchLength _ := hlen
  explenCap := hcap
  explenPos := by omega
  escErr h := by simp [hstatus] at h

/-- The invariant of a block that collects. -/
theorem inv_of_collect (hp : t.rxphase = .collect) (hparams : t.params.wf)
    (hesc : t.params.dialect = .hf → t.esc = false) (hbuf : t.rxbuf.length < t.explen)
    (hsync : t.params.dialect = .slip → 6 ≤ t.rxbuf.length ∧ syncMatch (t.rxbuf.take 6) = true)
    (hstatus : t.status = .none) (hcap : t.explen ≤ t.params.rxbufCap) : t.Inv where
  params := hparams
  search h := by simp [hp] at h
  collect _ := hbuf
  synced _ := hsync
  ok h := by simp [hstatus] at h
  running _ := hstatus
  hfEsc := hesc
  buffer _ := hbuf.le
  searchLength h := by simp [hp] at h
  explenCap := hcap
  explenPos := by omega
  escErr h := by simp [hstatus] at h

/-- A running operation that may not search collects. -/
theorem phase_eq_collect (h : s.rxphase ≠ .idle) (hs : s.rxphase ≠ .search) : s.rxphase = .collect := by
  cases hp : s.rxphase with
  | idle => exact absurd hp h
  | search => exact absurd hp hs
  | collect => rfl

/-- `finish` with a code other than `OK`. -/
theorem State.Inv.finish {c : Status} (hI : s.Inv) (h : s.rxphase ≠ .idle) (hok : c ≠ .ok)
    (herr : c = .escErr → s.params.dialect = .slip ∧ s.esc = false) : (s.finish c).Inv :=
  inv_of_idle rfl hI.params hI.hfEsc (finishedBuffer_length_lt hI h).le (fun hc => absurd hc hok) herr hI.explenCap
    hI.explenPos

/-- `finish(OK)` with the buffer full. -/
theorem State.Inv.finish_ok (hI : s.Inv) (hparams : t.params = s.params) (hesc : t.params.dialect = .hf → t.esc = false)
    (hlen : t.explen = s.explen) (hs : t.rxphase ≠ .search) (hbuf : t.rxbuf.length = t.explen) :
    (t.finish .ok).Inv := by
  have hfull : (t.finish .ok).rxbuf.length = (t.finish .ok).explen := finish_rxbuf_length hs hbuf
  exact inv_of_idle rfl (hparams ▸ hI.params) hesc hfull.le (fun _ => hfull) (fun h => by cases h)
    (hlen ▸ hparams ▸ hI.explenCap) (hlen ▸ hI.explenPos)

/-- Under `HF` no operation searches. -/
theorem State.Inv.phase_of_hf (hI : s.Inv) (h : s.rxphase ≠ .idle) (hd : s.params.dialect = .hf) :
    s.rxphase = .collect :=
  phase_eq_collect h fun hs => by simp [(hI.search hs).1] at hd

/-- Under SLIP the flag is free. -/
theorem State.Inv.writeEsc {e : Bool} (hI : s.Inv) (h : s.rxphase ≠ .idle) (hd : s.params.dialect = .slip) :
    (s.writeEsc e).Inv := by
  have hhf : s.params.dialect ≠ .hf := by simp [hd]
  have herr : s.status ≠ .escErr := by simp [hI.running h]
  exact ⟨hI.params, hI.search, hI.collect, hI.synced, hI.ok, hI.running, fun h => absurd h hhf, hI.buffer,
    hI.searchLength, hI.explenCap, hI.explenPos, fun h => absurd h herr⟩

/-- A byte that ends neither the search nor the operation. -/
theorem State.Inv.append (hI : s.Inv) (h : s.rxphase ≠ .idle) (d : Byte)
    (h6 : s.rxphase = .search → (s.rxbuf ++ [d]).length ≠ 6)
    (hl : s.rxphase = .collect → (s.rxbuf ++ [d]).length ≠ s.explen) : (s.writeRxbuf (s.rxbuf ++ [d])).Inv := by
  have hlen : (s.rxbuf ++ [d]).length = s.rxbuf.length + 1 := List.length_append
  by_cases hp : s.rxphase = .search
  · obtain ⟨hd, hbuf⟩ := hI.search hp
    have h6 := h6 hp
    exact inv_of_search hp hI.params hd (show (s.rxbuf ++ [d]).length ≤ 5 by omega) (hI.running h)
      (hI.searchLength hp) hI.explenCap
  · have hp := phase_eq_collect h hp
    have hl := hl hp
    have hbuf := hI.collect hp
    refine inv_of_collect hp hI.params hI.hfEsc (show (s.rxbuf ++ [d]).length < s.explen by omega) (fun hd => ?_)
      (hI.running h) hI.explenCap
    obtain ⟨hlong, hsync⟩ := hI.synced hp hd
    refine ⟨show 6 ≤ (s.rxbuf ++ [d]).length by omega, ?_⟩
    rw [writeRxbuf_rxbuf, List.take_append_of_le_length hlong]
    exact hsync

/-- Every way a receive step can end keeps the invariant. -/
theorem ReceiveCase.inv (h : ReceiveCase s t) (hI : s.Inv) : t.Inv := by
  have hpop : s.rxsPop.Inv := hI.congr rfl
  cases h with
  | same ht => exact ht ▸ hI
  | cancelled h _ ht => exact ht ▸ hI.finish h (by decide) nofun
  | timeout h _ _ ht => exact ht ▸ hI.finish h (by decide) nofun
  | hfKept h _ b _ _ hd hl ht =>
    have hp := hI.phase_of_hf h hd
    exact ht ▸ hpop.append h b (fun hs => by simp [hp] at hs) fun _ => hl
  | hfDone h _ b _ _ hd hl ht =>
    have hp := hI.phase_of_hf h hd
    exact ht ▸ hI.finish_ok rfl hI.hfEsc rfl (by simp [hp]) hl
  | dropped h _ _ _ _ hd e ht => exact ht ▸ hpop.writeEsc h hd
  | escError h _ _ _ _ hd ht => exact ht ▸ (hpop.writeEsc h hd).finish h (by decide) fun _ => ⟨hd, rfl⟩
  | grows h _ _ _ _ hd d h6 hl ht => exact ht ▸ (hpop.writeEsc h hd).append h d h6 hl
  | slides h _ _ _ _ hd d h6 _ ht =>
    exact ht ▸ inv_of_search h hI.params hd (by simp at h6 ⊢; omega) (hI.running (by simp [h])) (hI.searchLength h)
      hI.explenCap
  | synced h _ _ _ _ hd d h6 hm hl ht =>
    have hlen := hI.searchLength h
    refine ht ▸ inv_of_collect rfl hI.params (fun hhf => by simp [hd] at hhf)
      (show (s.rxbuf ++ [d]).length < s.explen by omega) (fun _ => ⟨h6.ge, ?_⟩) (hI.running (by simp [h])) hI.explenCap
    exact (congrArg syncMatch (List.take_of_length_le h6.le)).trans hm
  | slipDone _ _ _ _ _ hd d hl _ ht =>
    exact ht ▸ hI.finish_ok rfl (fun hhf => by simp [hd] at hhf) rfl (by simp) hl

/-- Every way an instruction can end keeps the invariant. -/
theorem ExecCase.inv (h : ExecCase s t i) (hI : s.Inv) : t.Inv := by
  cases h with
  | refused _ _ _ ht | crcInit _ ht | crcUpd _ _ ht | crcGet _ ht | crcCmp _ _ ht | hfEncs _ _ _ _ _ ht
  | hfEncl _ _ _ _ _ ht | slipEnc _ _ _ _ ht | slipDec _ _ _ _ ht | arrives _ _ _ ht => exact ht ▸ hI.congr rfl
  | hfRx n tmo _ hd hr ht =>
    exact ht ▸ inv_of_collect rfl hI.params hI.hfEsc hr.1 (fun hslip => by simp [hd] at hslip) rfl hr.2
  | slipRx n tmo _ hd hr ht => exact ht ▸ inv_of_search rfl hI.params hd (by simp) rfl hr.1 hr.2

theorem State.Inv.resetBlock (hI : s.Inv) : s.resetBlock.Inv :=
  inv_of_idle rfl hI.params (fun _ => rfl) (by simp) nofun nofun (show 1 ≤ s.params.rxbufCap from
    le_trans (by decide) hI.params) le_rfl

/-- Settles O4, by the effects of a step: a receive step and an instruction by their cases, a reset by its registers,
and no other move touches what the invariant speaks of. -/
theorem everyStepKeepsInvariant : Obligations.EveryStepKeepsInvariant := by
  intro s t hI h
  have hdrop : s.dropMove.Inv := hI.congr rfl
  cases step_effect h with
  | receives h => exact h.inv hdrop
  | resets _ ht => exact ht ▸ hdrop.resetBlock
  | runs _ _ ht => exact ht.inv hdrop
  | refused _ ht | rx _ ht | txTake _ _ _ ht | cancel _ ht => exact ht ▸ hI.congr rfl

theorem inv_powerUp {p : Params} (h : p.wf) : (State.powerUp p).Inv :=
  inv_of_idle rfl h (fun _ => rfl) (by simp [State.powerUp]) nofun nofun (show 1 ≤ p.rxbufCap from
    le_trans (by decide) h) le_rfl

/-- Settles O3: at power-up the block is idle with an empty buffer. -/
theorem invariantHoldsAtPowerUp : Obligations.InvariantHoldsAtPowerUp :=
  ⟨fun _ => inv_powerUp, inv_powerUp (by decide)⟩

end Sys2Proof.Machine

/-! PROOFS. Which steps write which register (10_state.md R28), what happens to the streams (20_memory.md R58), and the
responses that end a receive operation (41_common.md R124). -/

namespace Sys2Proof.Machine

open Sys2Proof.Claims

variable {s t : State} {i : Instr}

/-! ### What a receive step leaves as it is -/

theorem ReceiveCase.frame (h : ReceiveCase s t) :
    t.crc = s.crc ∧ t.crcMatch = s.crcMatch ∧ t.explen = s.explen ∧ t.txs = s.txs := by
  cases h <;> subst t <;> simp

/-- An idle block takes no receive step. -/
theorem ReceiveCase.eq_or_running (h : ReceiveCase s t) : t = s ∨ s.rxphase ≠ .idle := by
  cases h with
  | same ht => exact .inl ht
  | cancelled h | timeout h | hfKept h | hfDone h | dropped h | escError h | grows h | slipDone h => exact .inr h
  | slides h | synced h => exact .inr (by simp [h])

/-- A receive step takes no byte, or the head byte for a running operation; under `HF` it leaves `esc`. -/
theorem ReceiveCase.takes (h : ReceiveCase s t) :
    (t.rxs = s.rxs ∧ t.esc = s.esc) ∨
    (s.cancel = false ∧ (∃ b, s.rxs = b :: t.rxs) ∧ (t.esc = s.esc ∨ s.params.dialect = .slip)) := by
  cases h with
  | same ht | cancelled _ _ ht | timeout _ _ _ ht => subst ht; exact .inl ⟨rfl, rfl⟩
  | hfKept _ hc _ _ hx _ _ ht | hfDone _ hc _ _ hx _ _ ht =>
    subst ht; exact .inr ⟨hc, rxs_eq_head_rxsPop hx, .inl rfl⟩
  | dropped _ hc _ _ hx hd _ ht | escError _ hc _ _ hx hd ht | grows _ hc _ _ hx hd _ _ _ ht
  | slides _ hc _ _ hx hd _ _ _ ht | synced _ hc _ _ hx hd _ _ _ _ ht | slipDone _ hc _ _ hx hd _ _ _ ht =>
    subst ht; exact .inr ⟨hc, rxs_eq_head_rxsPop hx, .inr hd⟩

/-- A receive step goes on and answers nothing, or it ends the operation with one `DONE`. -/
theorem ReceiveCase.ends_or_silent (h : ReceiveCase s t) :
    (t.rsp = s.rsp ∧ t.status = s.status) ∨ (s.rxphase ≠ .idle ∧ t.rxphase = .idle) := by
  cases h with
  | same ht | hfKept _ _ _ _ _ _ _ ht | dropped _ _ _ _ _ _ _ ht | grows _ _ _ _ _ _ _ _ _ ht
  | slides _ _ _ _ _ _ _ _ _ ht | synced _ _ _ _ _ _ _ _ _ _ ht => subst ht; exact .inl ⟨rfl, rfl⟩
  | cancelled h _ ht | timeout h _ _ ht | hfDone h _ _ _ _ _ _ ht | escError h _ _ _ _ _ ht
  | slipDone h _ _ _ _ _ _ _ _ ht => subst ht; exact .inr ⟨h, rfl⟩

/-! ### What an instruction leaves as it is -/

theorem ExecCase.esc_eq (h : ExecCase s t i) : t.esc = s.esc := by
  cases h <;> subst t <;> rfl

theorem ExecCase.crc (h : ExecCase s t i) :
    t.crc = s.crc ∨ (s.rxphase = .idle ∧ (i = .crcInit ∨ ∃ b, i = .crcUpd b)) := by
  cases h with
  | crcInit h => exact .inr ⟨h, .inl rfl⟩
  | crcUpd b h => exact .inr ⟨h, .inr ⟨b, rfl⟩⟩
  | refused | crcGet | crcCmp | hfEncs | hfEncl | hfRx | slipEnc | slipDec | slipRx | arrives =>
    subst t; exact .inl rfl

theorem ExecCase.crcMatch (h : ExecCase s t i) :
    t.crcMatch = s.crcMatch ∨ (s.rxphase = .idle ∧ ∃ v, i = .crcCmp v) := by
  cases h with
  | crcCmp v h => exact .inr ⟨h, v, rfl⟩
  | refused | crcInit | crcUpd | crcGet | hfEncs | hfEncl | hfRx | slipEnc | slipDec | slipRx | arrives =>
    subst t; exact .inl rfl

/-- Only the start of a receive operation writes the receive registers. -/
theorem ExecCase.receive_registers (h : ExecCase s t i) :
    (t.explen = s.explen ∧ t.rxbuf = s.rxbuf ∧ t.status = s.status) ∨
    (s.rxphase = .idle ∧ t.status = .none ∧ ∃ n tmo, i = .hfRx n tmo ∨ i = .slipRx n tmo) := by
  cases h with
  | hfRx n tmo h => subst t; exact .inr ⟨h, rfl, n, tmo, .inl rfl⟩
  | slipRx n tmo h => subst t; exact .inr ⟨h, rfl, n, tmo, .inr rfl⟩
  | refused | crcInit | crcUpd | crcGet | crcCmp | hfEncs | hfEncl | slipEnc | slipDec | arrives =>
    subst t; exact .inl ⟨rfl, rfl, rfl⟩

/-- Only a wire row puts bytes on `RXS`. -/
theorem ExecCase.rxs (h : ExecCase s t i) : ∃ d, t.rxs = s.rxs ++ d := by
  cases h with
  | arrives _ d _ ht => subst ht; exact ⟨d, rfl⟩
  | refused | crcInit | crcUpd | crcGet | crcCmp | hfEncs | hfEncl | hfRx | slipEnc | slipDec | slipRx =>
    subst t; exact ⟨[], (List.append_nil _).symm⟩

/-- The frame that an encode operation puts on `TXS`. -/
def encodesTo (i : Instr) (d : List Byte) : Prop :=
  (∃ opc p, (i = .hfEncs opc p ∧ d = hfShortFrame opc p) ∨ (i = .hfEncl opc p ∧ d = hfLongFrame opc p)) ∨
  ∃ p, i = .slipEnc p ∧ d = slipEncFrame p

/-- Only an encode operation puts bytes on `TXS`, and answers them. -/
theorem ExecCase.txs (h : ExecCase s t i) :
    t.txs = s.txs ∨ ∃ d, t.txs = s.txs ++ d ∧ t.rsp = s.rsp ++ [.accept (.frame d)] ∧ encodesTo i d := by
  cases h with
  | hfEncs opc p => subst t; exact .inr ⟨_, rfl, rfl, .inl ⟨opc, p, .inl ⟨rfl, rfl⟩⟩⟩
  | hfEncl opc p => subst t; exact .inr ⟨_, rfl, rfl, .inl ⟨opc, p, .inr ⟨rfl, rfl⟩⟩⟩
  | slipEnc p => subst t; exact .inr ⟨_, rfl, rfl, .inr ⟨p, rfl, rfl⟩⟩
  | refused | crcInit | crcUpd | crcGet | crcCmp | hfRx | slipDec | slipRx | arrives => subst t; exact .inl rfl

/-! ### The registers -/

theorem step_crc_change (h : step s = .next t) (hne : t.crc ≠ s.crc) :
    resets s ∨ (s.rxphase = .idle ∧ (runs s .crcInit ∨ ∃ b, runs s (.crcUpd b))) := by
  cases step_effect h with
  | resets hr => exact .inl hr
  | receives h => exact absurd h.frame.1 hne
  | runs i hi ht =>
    obtain heq | ⟨h, rfl | ⟨b, rfl⟩⟩ := ht.crc
    · exact absurd heq hne
    · exact .inr ⟨h, .inl hi⟩
    · exact .inr ⟨h, .inr ⟨b, hi⟩⟩
  | refused | rx | txTake | cancel => subst t; exact absurd rfl hne

theorem step_crcMatch_change (h : step s = .next t) (hne : t.crcMatch ≠ s.crcMatch) :
    resets s ∨ (s.rxphase = .idle ∧ ∃ v, runs s (.crcCmp v)) := by
  cases step_effect h with
  | resets hr => exact .inl hr
  | receives h => exact absurd h.frame.2.1 hne
  | runs i hi ht =>
    obtain heq | ⟨h, v, rfl⟩ := ht.crcMatch
    · exact absurd heq hne
    · exact .inr ⟨h, v, hi⟩
  | refused | rx | txTake | cancel => subst t; exact absurd rfl hne

/-- A byte taken off `RXS` is gone from it. -/
theorem ne_of_eq_cons {b : Byte} {x y : List Byte} (h : x = b :: y) : y ≠ x :=
  h ▸ (List.cons_ne_self b y).symm

theorem step_esc_change (h : step s = .next t) (hne : t.esc ≠ s.esc) :
    resets s ∨ (blocksTurn s ∧ s.rxphase ≠ .idle ∧ s.params.dialect = .slip ∧ s.cancel = false ∧
      ∃ b, s.rxs = b :: t.rxs) := by
  cases step_effect h with
  | resets hr => exact .inl hr
  | receives h hb =>
    obtain ⟨-, heq⟩ | ⟨hc, ⟨b, hx⟩, heq | hd⟩ := h.takes
    · exact absurd heq hne
    · exact absurd heq hne
    · have hrun := h.eq_or_running.resolve_left fun heq => hne (by rw [heq]; rfl)
      exact .inr ⟨hb (ne_of_eq_cons hx), hrun, hd, hc, b, hx⟩
  | runs i _ ht => exact absurd ht.esc_eq hne
  | refused | rx | txTake | cancel => subst t; exact absurd rfl hne

/-- A start of a receive operation, as a move. -/
theorem runs_receive {n tmo : Nat} (hi : runs s i) (h : i = .hfRx n tmo ∨ i = .slipRx n tmo) :
    runs s (.hfRx n tmo) ∨ runs s (.slipRx n tmo) :=
  h.imp (fun (h : i = .hfRx n tmo) => h ▸ hi) fun (h : i = .slipRx n tmo) => h ▸ hi

theorem step_explen_change (h : step s = .next t) (hne : t.explen ≠ s.explen) :
    resets s ∨ (s.rxphase = .idle ∧ ∃ n tmo, runs s (.hfRx n tmo) ∨ runs s (.slipRx n tmo)) := by
  cases step_effect h with
  | resets hr => exact .inl hr
  | receives h => exact absurd h.frame.2.2.1 hne
  | runs i hi ht =>
    obtain ⟨heq, -, -⟩ | ⟨h, -, n, tmo, hrx⟩ := ht.receive_registers
    · exact absurd heq hne
    · exact .inr ⟨h, n, tmo, runs_receive hi hrx⟩
  | refused | rx | txTake | cancel => subst t; exact absurd rfl hne

theorem step_rxbuf_change (h : step s = .next t) (hne : t.rxbuf ≠ s.rxbuf) :
    resets s ∨ s.rxphase ≠ .idle ∨ ∃ n tmo, runs s (.hfRx n tmo) ∨ runs s (.slipRx n tmo) := by
  cases step_effect h with
  | resets hr => exact .inl hr
  | receives h => exact .inr (.inl (h.eq_or_running.resolve_left fun heq => hne (by rw [heq]; rfl)))
  | runs i hi ht =>
    obtain ⟨-, heq, -⟩ | ⟨-, -, n, tmo, hrx⟩ := ht.receive_registers
    · exact absurd heq hne
    · exact .inr (.inr ⟨n, tmo, runs_receive hi hrx⟩)
  | refused | rx | txTake | cancel => subst t; exact absurd rfl hne

theorem step_status_change (h : step s = .next t) (hne : t.status ≠ s.status) :
    resets s ∨ (s.rxphase ≠ .idle ∧ t.rxphase = .idle) ∨
    (s.rxphase = .idle ∧ t.status = .none ∧ ∃ n tmo, runs s (.hfRx n tmo) ∨ runs s (.slipRx n tmo)) := by
  cases step_effect h with
  | resets hr => exact .inl hr
  | receives h => exact .inr (.inl (h.ends_or_silent.resolve_left fun heq => hne heq.2))
  | runs i hi ht =>
    obtain ⟨-, -, heq⟩ | ⟨h, hnone, n, tmo, hrx⟩ := ht.receive_registers
    · exact absurd heq hne
    · exact .inr (.inr ⟨h, hnone, n, tmo, runs_receive hi hrx⟩)
  | refused | rx | txTake | cancel => subst t; exact absurd rfl hne

/-- Settles O20, register by register. -/
theorem registersAreWrittenOnlyByTheirOperations : Obligations.RegistersAreWrittenOnlyByTheirOperations :=
  fun _ _ h => ⟨step_crc_change h, step_crcMatch_change h, step_esc_change h, step_explen_change h,
    step_rxbuf_change h, step_status_change h⟩

/-! ### The responses that end an operation -/

theorem dones_append (rs rs' : List Response) : dones (rs ++ rs') = dones rs ++ dones rs' := List.filter_append ..

theorem ExecCase.dones_eq (h : ExecCase s t i) : dones t.rsp = dones s.rsp := by
  obtain h | ⟨v, h⟩ | ⟨r, rfl⟩ := h.rsp
  · rw [h]
  · rw [h, dones_append]
    exact List.append_nil _
  · rw [refuse_rsp, dones_append]
    exact List.append_nil _

/-- A step that ends no operation adds no `DONE`. -/
theorem step_dones_eq (h : step s = .next t) (hend : ¬ (s.rxphase ≠ .idle ∧ t.rxphase = .idle ∧ ¬ resets s)) :
    dones t.rsp = dones s.rsp := by
  cases step_effect h with
  | receives h _ hr =>
    obtain ⟨hrsp, -⟩ := h.ends_or_silent.resolve_right fun ⟨hs, ht⟩ => hend ⟨hs, ht, hr⟩
    exact congrArg dones hrsp
  | runs i _ ht => exact ht.dones_eq
  | refused r ht =>
    subst ht
    rw [refuse_rsp, dones_append]
    exact List.append_nil _
  | resets | rx | txTake | cancel => subst t; rfl

/-- Settles O22: what ends the phase answers the `DONE`, and no other case of a step answers one. -/
theorem oneDoneForEachReceiveThatEnds : Obligations.OneDoneForEachReceiveThatEnds := by
  intro s t h
  refine ⟨fun ⟨hs, ht, hr⟩ => ?_, step_dones_eq h⟩
  obtain ⟨hr', -⟩ | ⟨hi, -⟩ | ⟨hi, -⟩ | ⟨-, hc, -⟩ | ⟨-, -, hrsp⟩ := step_phase_change h fun he => hs (he.symm.trans ht)
  · exact absurd hr' hr
  · exact absurd hi hs
  · exact absurd hi hs
  · simp [ht] at hc
  · exact hrsp

/-! ### The streams -/

/-- Settles O23, by the effects of a step. -/
theorem receiveStreamIsFirstInFirstOut : Obligations.ReceiveStreamIsFirstInFirstOut := by
  intro s t h
  cases step_effect h with
  | receives h hb =>
    obtain ⟨heq, -⟩ | ⟨hc, ⟨b, hx⟩, -⟩ := h.takes
    · exact .inl heq
    · have hne := ne_of_eq_cons hx
      have hrun := h.eq_or_running.resolve_left fun heq => hne (by rw [heq])
      exact .inr (.inr ⟨b, hx, hrun, hc, hb hne⟩)
  | runs i _ ht => exact .inr (.inl ht.rxs)
  | rx d ht => subst ht; exact .inr (.inl ⟨d, rfl⟩)
  | resets | refused | txTake | cancel => subst t; exact .inl rfl

theorem runs_encodesTo {d : List Byte} (hi : runs s i) (h : encodesTo i d) :
    (∃ opc p, (runs s (.hfEncs opc p) ∧ d = hfShortFrame opc p) ∨ (runs s (.hfEncl opc p) ∧ d = hfLongFrame opc p)) ∨
      ∃ p, runs s (.slipEnc p) ∧ d = slipEncFrame p := by
  obtain ⟨opc, p, ⟨rfl, hd⟩ | ⟨rfl, hd⟩⟩ | ⟨p, rfl, hd⟩ := h
  · exact .inl ⟨opc, p, .inl ⟨hi, hd⟩⟩
  · exact .inl ⟨opc, p, .inr ⟨hi, hd⟩⟩
  · exact .inr ⟨p, hi, hd⟩

/-- Settles O24, by the effects of a step. -/
theorem transmitStreamGrowsByWholeFrames : Obligations.TransmitStreamGrowsByWholeFrames := by
  intro s t h
  cases step_effect h with
  | receives h => exact .inl h.frame.2.2.2
  | runs i hi ht =>
    exact ht.txs.imp_right fun ⟨d, htxs, hrsp, henc⟩ => .inl ⟨d, htxs, hrsp, runs_encodesTo hi henc⟩
  | txTake n rest hs ht => subst ht; exact .inr (.inr ⟨n, rest, hs, rfl⟩)
  | resets | refused | rx | cancel => subst t; exact .inl rfl

end Sys2Proof.Machine

/-! PROOFS. The CRC engine: the update is bit-serial (40_crc32.md R109), the residue (R111 (d)) and the listing
(R102). -/

namespace Sys2Proof.Machine

open Sys2Proof.Claims

/-! ### Eight shifts at a time -/

theorem crcShifts_add (j k : Nat) (x : Word) : crcShifts (j + k) x = crcShifts k (crcShifts j x) := by
  induction j generalizing x with
  | zero => rw [Nat.zero_add, crcShifts]
  | succ j ih => rw [Nat.succ_add, crcShifts, ih, crcShifts]

/-- A word is its low byte and the rest. -/
theorem word_eq_low_xor_high (x : Word) : x = (x.setWidth 8).setWidth 32 ^^^ (x >>> 8) <<< 8 := by
  refine BitVec.eq_of_getLsbD_eq fun i hi => ?_
  by_cases h : i < 8
  · simp [h, hi]
  · have hback : 8 + (i - 8) = i := by omega
    simp [h, hi, hback]

theorem shiftRight_shiftLeft_shiftRight (x : Word) : ((x >>> 8) <<< 8) >>> 8 = x >>> 8 := by
  refine BitVec.eq_of_getLsbD_eq fun i hi => ?_
  by_cases h : 8 + i < 32
  · simp [h]
  · have hout : x.getLsbD (8 + i) = false := BitVec.getLsbD_of_ge x _ (by omega)
    simp [h, hout]

/-- Eight shifts read the low byte off the table and move the rest right. -/
theorem crcShifts_eight (x : Word) : crcShifts 8 x = crcTable (x.setWidth 8) ^^^ (x >>> 8) := by
  have hhigh : crcShifts 8 ((x >>> 8) <<< 8) = x >>> 8 := by
    rw [crcShifts_low_zero 8 _ fun j hj => by simp [hj], shiftRight_shiftLeft_shiftRight]
  calc crcShifts 8 x
    _ = crcShifts 8 ((x.setWidth 8).setWidth 32 ^^^ (x >>> 8) <<< 8) := congrArg _ (word_eq_low_xor_high x)
    _ = crcTable (x.setWidth 8) ^^^ (x >>> 8) := by rw [crcShifts_xor, hhigh, crcTable]

/-- A byte has no bits above its eight. -/
theorem byte_shiftRight_eight (b : Byte) : (b.setWidth 32) >>> 8 = 0#32 :=
  BitVec.eq_of_getLsbD_eq fun i _ => by simp

theorem crcStep_eq_crcShifts (c : Word) (b : Byte) : crcStep c b = crcShifts 8 (c ^^^ b.setWidth 32) := by
  rw [crcShifts_eight, BitVec.ushiftRight_xor_distrib, byte_shiftRight_eight, BitVec.xor_zero, crcStep]

/-- Settles O31: by linearity, the low byte goes through the table and the rest moves right. -/
theorem crcStepIsBitSerial : Obligations.CrcStepIsBitSerial := crcStep_eq_crcShifts

/-! ### The residue -/

/-- Eight shifts of an accumulator and a word take the word's low byte as `crc_step` does, and move the word right. -/
theorem crcShifts_eight_xor (c v : Word) : crcShifts 8 (c ^^^ v) = crcStep c (v.setWidth 8) ^^^ (v >>> 8) := by
  have htable : (c ^^^ (v.setWidth 8).setWidth 32).setWidth 8 = (c ^^^ v).setWidth 8 :=
    BitVec.eq_of_getLsbD_eq fun i hi => by simp [hi]
  rw [crcShifts_eight, BitVec.ushiftRight_xor_distrib, crcStep, htable, BitVec.xor_assoc]

theorem le32Bytes_toNat (v : Word) :
    le32Bytes v.toNat = [v.setWidth 8, (v >>> 8).setWidth 8, (v >>> 16).setWidth 8, (v >>> 24).setWidth 8] := by
  simp [le32Bytes, BitVec.toNat_eq, Nat.shiftRight_eq_div_pow]

/-- Feeding a word, low byte first, is 32 shifts of it and the accumulator. -/
theorem crcFeed_le32Bytes (c v : Word) : crcFeed c (le32Bytes v.toNat) = crcShifts 32 (c ^^^ v) := by
  have hzero : v >>> 32 = 0#32 := BitVec.ushiftRight_eq_zero le_rfl
  rw [crcShifts_add 8 24, crcShifts_eight_xor, crcShifts_add 8 16, crcShifts_eight_xor, crcShifts_add 8 8,
    crcShifts_eight_xor, crcShifts_eight_xor, le32Bytes_toNat]
  simp only [← BitVec.shiftRight_add, Nat.reduceAdd, hzero, BitVec.xor_zero, crcFeed_cons, crcFeed_nil]

theorem crcShifts_allOnes : crcShifts 32 0xFFFFFFFF = 0xDEBB20E3 := by
  simp [crcShifts, crcShift, crcPoly]

/-- Settles O32: the CRC fed behind its own message leaves 32 shifts of the final exclusive-or. -/
theorem crcResidueIsConstant : Obligations.CrcResidueIsConstant := by
  intro p d hx
  have hacc : crcAcc p (d ++ le32Bytes (crc32 p d).toNat) = 0xDEBB20E3 := by
    rw [crcAcc, crcFeed_append, crcFeed_le32Bytes, crc32, crcAcc, ← BitVec.xor_assoc, BitVec.xor_self,
      BitVec.zero_xor, hx, crcShifts_allOnes]
  exact ⟨hacc, by rw [crc32, hacc, hx]; decide⟩

/-! ### The listing -/

/-- The generated entries from index `i` on. -/
def generatedRows (i k : Nat) : List Word := (List.range' i k).map fun j => crcTable (BitVec.ofNat 8 j)

/-! A quarter of the listing at a time is evaluated. -/

theorem crcListing0_eq : crcListing0 = generatedRows 0 64 := by rfl

theorem crcListing1_eq : crcListing1 = generatedRows 64 64 := by rfl

theorem crcListing2_eq : crcListing2 = generatedRows 128 64 := by rfl

theorem crcListing3_eq : crcListing3 = generatedRows 192 64 := by rfl

theorem generatedRows_append (i k m : Nat) :
    generatedRows i k ++ generatedRows (i + k) m = generatedRows i (k + m) := by
  rw [generatedRows, generatedRows, generatedRows, ← List.map_append, List.range'_append_1]

theorem crcListing_eq_generatedRows : crcListing = generatedRows 0 256 := by
  rw [crcListing, crcListing0_eq, crcListing1_eq, crcListing2_eq, crcListing3_eq, generatedRows_append 0 64 64,
    generatedRows_append 0 128 64, generatedRows_append 0 192 64]

/-- Settles O30, by generating the table entry by entry. -/
theorem crcListingAgreesWithGeneration : Obligations.CrcListingAgreesWithGeneration := by
  rw [Obligations.CrcListingAgreesWithGeneration, crcListing_eq_generatedRows, generatedRows]
  refine ⟨by simp, fun i => ?_⟩
  have hi : i.toNat < 256 := i.isLt
  simp [hi]

end Sys2Proof.Machine

/-! PROOFS. When a step stops (60_exceptions.md R200, R201), and what requests and steps do not read: `CANCEL`
(41_common.md R123) and the timer (30_encoding.md R71). -/

namespace Sys2Proof.Machine

open Sys2Proof.Claims

variable {s t u : State} {i : Instr} {v : Option Nat}

/-! ### One form for every instruction -/

/-- The test of R73 on a request's operands. -/
def requestInRange (s : State) : Instr → Bool
  | .hfEncs _ p => hfEncsInRange p
  | .hfEncl _ p => hfEnclInRange p
  | .hfRx n _ => hfRxInRange n s
  | .slipEnc p => slipEncInRange p s
  | .slipDec f => slipDecInRange f s
  | .slipRx n _ => slipRxInRange n s
  | _ => true

/-- What an instruction does once it is accepted; a wire row always is. -/
def perform : Instr → State → State
  | .crcInit => performCrcInit
  | .crcUpd b => performCrcUpd b
  | .crcGet => performCrcGet
  | .crcCmp v => performCrcCmp v
  | .hfEncs opc p => fun s => s.emit (hfShortFrame opc p)
  | .hfEncl opc p => fun s => s.emit (hfLongFrame opc p)
  | .hfRx n tmo => fun s => s.startReceive .collect n tmo
  | .slipEnc p => fun s => s.emit (slipEncFrame p)
  | .slipDec f => fun s => s.respond (.accept (slipDecAnswer f))
  | .slipRx n tmo => fun s => s.startReceive .search n tmo
  | .slipSync x => fun s => s.rxsAppend (stuff (syncPattern x))
  | i => fun s => s.rxsAppend (encode i)

theorem exec_request (hi : i.format = .req) (s : State) :
    exec i s = takeRequest (opDialect i) (requestInRange s i) (perform i) s := by
  cases i with
  | crcInit | crcUpd | crcGet | crcCmp | hfEncs | hfEncl | hfRx | slipEnc | slipDec | slipRx => rfl
  | hfShort | hfLong | slipEnd | slipEscEnd | slipEscEsc | slipLiteral | slipFrame | slipSync => cases hi

theorem exec_wireRow (hi : i.format ≠ .req) (s : State) : exec i s = .next (perform i s) := by
  cases i with
  | crcInit | crcUpd | crcGet | crcCmp | hfEncs | hfEncl | hfRx | slipEnc | slipDec | slipRx => exact absurd rfl hi
  | hfShort | hfLong | slipEnd | slipEscEnd | slipEscEsc | slipLiteral | slipFrame | slipSync => rfl

/-! ### When a step stops -/

/-- No instruction stops the machine. -/
theorem exec_next (i : Instr) (s : State) : ∃ t, exec i s = .next t := by
  by_cases hi : i.format = .req
  · rw [exec_request hi]
    exact takeRequest_next
  · exact ⟨_, exec_wireRow hi s⟩

/-- The next step presents bytes that are no whole item of their format, for the reason `e`. -/
def presentsMalformed (s : State) (e : DecodeError) : Prop :=
  ∃ f bytes rest, s.sched = .present f bytes :: rest ∧ decode f bytes = .error e ∧ ∀ b, e ≠ .badOp b

/-- A step gives a next state, or refuses a malformed item. -/
theorem step_next_or_malformed (s : State) :
    (∃ t, step s = .next t) ∨ ∃ e, presentsMalformed s e ∧ step s = .refused (.malformed e) := by
  match hs : s.sched with
  | [] => exact .inl ⟨_, step_no_move hs⟩
  | .block :: _ => exact .inl ⟨_, step_block hs⟩
  | .rx _ :: _ => exact .inl ⟨_, step_rx hs⟩
  | .txTake _ :: _ => exact .inl ⟨_, step_txTake hs⟩
  | .tmo :: _ => exact .inl ⟨_, step_tmo hs⟩
  | .cancel _ :: _ => exact .inl ⟨_, step_cancel hs⟩
  | .reset _ :: _ => exact .inl ⟨_, step_reset hs⟩
  | .present f bytes :: rest =>
    match hd : decode f bytes with
    | .ok i =>
      rw [step_present hs hd]
      exact .inl (exec_next i _)
    | .error e =>
      by_cases he : ∀ b, e ≠ .badOp b
      · exact .inr ⟨e, ⟨f, bytes, rest, hs, hd, he⟩, step_malformed hs hd he⟩
      · obtain ⟨b, rfl⟩ : ∃ b, e = .badOp b := by simpa using he
        exact .inl ⟨_, step_badOp hs hd⟩

/-- Settles O6: an instruction is refused, performed, or arrives; a step stops in one case only. -/
theorem stepStopsOnlyOnMalformedItems : Obligations.StepStopsOnlyOnMalformedItems := by
  refine ⟨exec_next, fun _ => nofun, fun s r h => ?_⟩
  obtain ⟨t, ht⟩ | ⟨e, ⟨f, bytes, rest, hs, hd, he⟩, hr⟩ := step_next_or_malformed s
  · rw [ht] at h
    cases h
  · rw [hr] at h
    cases h
    exact ⟨f, bytes, rest, e, hs, hd, rfl, he⟩

/-! ### What taking a request reads -/

/-- The tests of R120 read the phase and the parameters only: a state that agrees in them is refused for the same
reason or performs, too. -/
theorem takeRequest_agrees {dialect : Option Dialect} {inRange : Bool} {f g : State → State}
    (hphase : u.rxphase = s.rxphase) (hparams : u.params = s.params) (h : takeRequest dialect inRange f s = .next t) :
    (∃ r, t = s.refuse r ∧ takeRequest dialect inRange g u = .next (u.refuse r)) ∨
    (t = f s ∧ takeRequest dialect inRange g u = .next (g u)) := by
  have hreason : refusalReason dialect inRange u = refusalReason dialect inRange s := by
    simp only [refusalReason, hphase, hparams]
  unfold takeRequest at h ⊢
  rw [hreason]
  split at h
  · next r hr => exact .inl ⟨r, (Host.Outcome.next.inj h).symm, by simp⟩
  · exact .inr ⟨(Host.Outcome.next.inj h).symm, by simp⟩

/-! ### `CANCEL` -/

theorem perform_with_cancel (i : Instr) (s : State) (c : Bool) :
    perform i { s with cancel := c } = { perform i s with cancel := c } := by
  cases i <;> rfl

/-- Settles O19: neither the tests nor the effect of a request read the level; and the cases of an instruction say which
write the phase. -/
theorem requestsDoNotReadCancel : Obligations.RequestsDoNotReadCancel := by
  intro i s t c hi h
  refine ⟨?_, fun hne => ?_⟩
  · rw [exec_request hi] at h ⊢
    obtain ⟨r, ht, hc⟩ | ⟨ht, hc⟩ :=
      takeRequest_agrees (s := s) (u := { s with cancel := c }) (g := perform i) rfl rfl h
    · subst ht
      exact hc
    · subst ht
      rw [← perform_with_cancel]
      exact hc
  · by_contra hp
    obtain ⟨-, ⟨-, n, tmo, hrx⟩ | ⟨-, n, tmo, hrx⟩⟩ := (exec_cases h).phase_change hp
    · exact (hne n tmo).1 hrx
    · exact (hne n tmo).2 hrx

/-! ### The timer, in an instruction -/

/-- Another timeout has been passed to the timer. -/
def State.withTimer (s : State) (v : Option Nat) : State := { s with timer := v }

/-- An effect overwrites the timer or leaves it, and does not read it. -/
theorem perform_withTimer (i : Instr) (s : State) (v : Option Nat) :
    ∃ w, perform i (s.withTimer v) = (perform i s).withTimer w := by
  cases i with
  | hfRx n tmo | slipRx n tmo => exact ⟨some tmo, rfl⟩
  | crcInit | crcUpd | crcGet | crcCmp | hfEncs | hfEncl | slipEnc | slipDec | hfShort | hfLong | slipEnd | slipEscEnd
  | slipEscEsc | slipLiteral | slipFrame | slipSync => exact ⟨v, rfl⟩

theorem exec_withTimer (h : exec i s = .next t) (v : Option Nat) :
    ∃ w, exec i (s.withTimer v) = .next (t.withTimer w) := by
  obtain ⟨w, hw⟩ := perform_withTimer i s v
  by_cases hi : i.format = .req
  · rw [exec_request hi] at h ⊢
    obtain ⟨r, ht, hu⟩ | ⟨ht, hu⟩ := takeRequest_agrees (s := s) (u := s.withTimer v) (g := perform i) rfl rfl h
    · subst ht
      exact ⟨v, hu⟩
    · subst ht
      exact ⟨w, hw ▸ hu⟩
  · rw [exec_wireRow hi] at h ⊢
    obtain rfl := Host.Outcome.next.inj h
    exact ⟨w, congrArg _ hw⟩

/-- Two receive requests that differ in the timeout differ in the timer only. -/
theorem takeRequest_startReceive_timer {dialect : Option Dialect} {inRange : Bool} {p : RxPhase} {n tmo tmo' : Nat}
    (h : takeRequest dialect inRange (fun s => s.startReceive p n tmo) s = .next t) :
    ∃ w, takeRequest dialect inRange (fun s => s.startReceive p n tmo') s = .next (t.withTimer w) := by
  obtain ⟨r, ht, hu⟩ | ⟨ht, hu⟩ :=
    takeRequest_agrees (s := s) (u := s) (g := fun s => s.startReceive p n tmo') rfl rfl h
  · subst ht
    exact ⟨s.timer, hu⟩
  · subst ht
    exact ⟨some tmo', hu⟩

/-! ### The timer, in a receive step -/

/-- The state with another escape flag, other raw bytes to come, and another timeout passed on: stage B (43_slip.md
R170) neither reads nor writes these. -/
def State.withRaw (s : State) (e : Bool) (x : List Byte) (v : Option Nat) : State :=
  { s with esc := e, rxs := x, timer := v }

theorem searchTest_withRaw (s : State) (e : Bool) (x : List Byte) (v : Option Nat) :
    searchTest (s.withRaw e x v) = (searchTest s).withRaw e x v := by
  by_cases h : s.rxphase = .search ∧ s.rxbuf.length = 6
  · obtain ⟨hp, hl⟩ := h
    cases hm : syncMatch s.rxbuf with
    | false => rw [searchTest_of_mismatch hp hl hm]; exact searchTest_of_mismatch hp hl hm
    | true => rw [searchTest_of_match hp hl hm]; exact searchTest_of_match hp hl hm
  · rw [searchTest_of_not h]
    exact searchTest_of_not h

theorem completionTest_withRaw (s : State) (e : Bool) (x : List Byte) (v : Option Nat) :
    completionTest (s.withRaw e x v) = (completionTest s).withRaw e x v := by
  by_cases h : s.rxphase = .collect ∧ s.rxbuf.length = s.explen
  · rw [completionTest_of_last h.1 h.2]
    exact completionTest_of_last h.1 h.2
  · rw [completionTest_of_not h]
    exact completionTest_of_not h

theorem deliver_withRaw (s : State) (d : Byte) (e : Bool) (x : List Byte) (v : Option Nat) :
    (s.withRaw e x v).deliver d = (s.deliver d).withRaw e x v := by
  change completionTest (searchTest ((s.writeRxbuf (s.rxbuf ++ [d])).withRaw e x v)) = _
  rw [searchTest_withRaw, completionTest_withRaw]
  rfl

/-- What delivering a byte leaves as it is. -/
theorem deliver_frame (s : State) (d : Byte) :
    (s.deliver d).params = s.params ∧ (s.deliver d).esc = s.esc ∧ (s.deliver d).rxs = s.rxs ∧
    (s.deliver d).cancel = s.cancel ∧ (s.deliver d).sched = s.sched ∧ (s.deliver d).explen = s.explen := by
  obtain ⟨-, -, h⟩ | ⟨-, -, -, h⟩ | ⟨-, -, -, -, h⟩ | ⟨-, -, -, h⟩ := @deliver_cases s d <;> rw [h] <;> simp

theorem deliver_withTimer (s : State) (d : Byte) (v : Option Nat) :
    (s.withTimer v).deliver d = (s.deliver d).withTimer v := by
  obtain ⟨-, hesc, hrxs, -⟩ := deliver_frame s d
  calc (s.withTimer v).deliver d
    _ = (s.deliver d).withRaw s.esc s.rxs v := deliver_withRaw s d s.esc s.rxs v
    _ = (s.deliver d).withTimer v := by rw [← hesc, ← hrxs]; rfl

theorem consumeHf_withTimer (s : State) (b : Byte) (v : Option Nat) :
    (s.withTimer v).consumeHf b = (s.consumeHf b).withTimer v := by
  by_cases h : s.rxbuf.length + 1 = s.explen
  · rw [State.consumeHf, State.consumeHf, if_pos h]
    exact if_pos h
  · rw [consumeHf_of_ne b h]
    exact consumeHf_of_ne b h

theorem consumeSlip_withTimer (s : State) (b : Byte) (v : Option Nat) :
    (s.withTimer v).consumeSlip b = (s.consumeSlip b).withTimer v := by
  obtain h | ⟨d, h⟩ | ⟨e, h⟩ := unstuff_cases s.esc b
  · rw [consumeSlip_of_error rfl h]
    exact consumeSlip_of_error rfl h
  · rw [consumeSlip_of_byte rfl h, ← deliver_withTimer]
    exact consumeSlip_of_byte rfl h
  · rw [consumeSlip_of_nothing rfl h]
    exact consumeSlip_of_nothing rfl h

theorem consume_withTimer (s : State) (b : Byte) (v : Option Nat) :
    (s.withTimer v).consume b = (s.consume b).withTimer v := by
  cases hd : s.params.dialect with
  | hf =>
    rw [consume_hf b hd, ← consumeHf_withTimer]
    exact consume_hf b hd
  | slip =>
    rw [consume_slip b hd, ← consumeSlip_withTimer]
    exact consume_slip b hd

theorem rxStep_withTimer (o : Bool) (s : State) (v : Option Nat) :
    rxStep o (s.withTimer v) = (rxStep o s).withTimer v := by
  by_cases h : s.rxphase = .idle
  · rw [rxStep_idle h]
    exact rxStep_idle h
  · cases hc : s.cancel with
    | true =>
      rw [rxStep_cancel h hc]
      exact rxStep_cancel h hc
    | false =>
      cases hx : s.rxs with
      | cons b more =>
        rw [rxStep_byte h hc hx, ← consume_withTimer]
        exact rxStep_byte h hc hx
      | nil =>
        cases o with
        | true =>
          rw [rxStep_timeout h hc hx]
          exact rxStep_timeout h hc hx
        | false =>
          rw [rxStep_waits h hc hx]
          exact rxStep_waits h hc hx

theorem offerTimeout_withTimer (s : State) (v : Option Nat) :
    offerTimeout (s.withTimer v) = (offerTimeout s).withTimer v := by
  by_cases h : s.cancel = false ∧ s.rxs = []
  · rw [offerTimeout, offerTimeout, if_pos h, ← rxStep_withTimer]
    exact if_pos h
  · rw [offerTimeout, offerTimeout, if_neg h]
    exact if_neg h

theorem step_withTimer (h : step s = .next t) (v : Option Nat) :
    ∃ w, step (s.withTimer v) = .next (t.withTimer w) := by
  cases step_cases h with
  | turn hs ht =>
    subst ht
    exact ⟨v, (step_no_move (s := s.withTimer v) hs).trans (congrArg _ (rxStep_withTimer false s v))⟩
  | block rest hs ht =>
    subst ht
    exact ⟨v, (step_block (s := s.withTimer v) hs).trans
      (congrArg _ (rxStep_withTimer false s.dropMove v))⟩
  | tmo rest hs ht =>
    subst ht
    exact ⟨v, (step_tmo (s := s.withTimer v) hs).trans
      (congrArg _ (offerTimeout_withTimer s.dropMove v))⟩
  | rx d rest hs ht => subst ht; exact ⟨v, step_rx (s := s.withTimer v) hs⟩
  | txTake n rest hs ht => subst ht; exact ⟨v, step_txTake (s := s.withTimer v) hs⟩
  | cancel b rest hs ht => subst ht; exact ⟨v, step_cancel (s := s.withTimer v) hs⟩
  | reset q rest hs ht => subst ht; exact ⟨v, step_reset (s := s.withTimer v) hs⟩
  | badOp f bytes b rest hs hd ht => subst ht; exact ⟨v, step_badOp (s := s.withTimer v) hs hd⟩
  | run f bytes i rest hs hd ht =>
    obtain ⟨w, hw⟩ := exec_withTimer ht v
    exact ⟨w, (step_present (s := s.withTimer v) hs hd).trans hw⟩

/-- Settles O25, by the cases of a step; the two receive requests write the timer last. -/
theorem noStepReadsTheTimeout : Obligations.NoStepReadsTheTimeout := by
  refine ⟨fun s t v h => step_withTimer h v, fun s t n tmo tmo' => ⟨fun h => ?_, fun h => ?_⟩⟩
  · rw [exec_hfRx] at h ⊢
    exact takeRequest_startReceive_timer h
  · rw [exec_slipRx] at h ⊢
    exact takeRequest_startReceive_timer h

end Sys2Proof.Machine

/-! PROOFS. Single steps: the moves of the agents (60_exceptions.md R217), the arms of the receive step (41_common.md
R125), `TMO` (60_exceptions.md R206), the wire rows (30_encoding.md R74 to R79), and SLIP encode then decode (43_slip.md
R167). -/

namespace Sys2Proof.Machine

open Sys2Proof.Claims

variable {s t : State} {rest : List Move}

/-! ### Power-up -/

/-- Settles O2: the registers are read off the definition of power-up, and `CRC.GET` runs on an idle block. -/
theorem powerUpRegistersAndEmptyCrc : Obligations.PowerUpRegistersAndEmptyCrc :=
  ⟨fun _ => ⟨rfl, rfl, rfl, rfl, rfl, rfl, rfl, rfl⟩, rfl, rfl, exec_crcGet_of_idle rfl⟩

/-! ### The moves -/

/-- Settles O5: the presented bytes are decoded, and the move is taken off. -/
theorem stepRunsDecodedInstruction : Obligations.StepRunsDecodedInstruction := by
  intro s f bytes rest i hs hd
  rw [step_present hs hd, dropMove_eq hs]

/-- Settles O7, move by move. -/
theorem environmentMovesTouchOnlyTheirPort : Obligations.EnvironmentMovesTouchOnlyTheirPort := by
  refine fun s rest => ⟨fun d hs => ?_, fun n hs => ?_, fun b hs => ?_⟩
  · rw [step_rx hs, dropMove_eq hs]
    rfl
  · rw [step_txTake hs, dropMove_eq hs]
    rfl
  · rw [step_cancel hs, dropMove_eq hs]
    rfl

theorem step_block_eq (hs : s.sched = .block :: rest) : step s = .next (rxStep false { s with sched := rest }) := by
  rw [step_block hs, dropMove_eq hs, blockTurn]

/-- Settles O8: without a move left the turn is the block's, and an idle block takes no receive step. -/
theorem idleBlockDoesNothing : Obligations.IdleBlockDoesNothing := by
  refine ⟨fun s hs => ?_, fun s rest h hs => ?_⟩
  · have hblock : step { s with sched := [.block] } = .next (rxStep false { s with sched := [] }) := step_block_eq rfl
    rw [step_no_move hs, hblock, ← hs, blockTurn]
  · rw [step_block_eq hs]
    exact congrArg _ (rxStep_idle h)

/-! ### The receive step -/

theorem offerTimeout_of_waiting (h : s.rxphase ≠ .idle) (hc : s.cancel = false) (hx : s.rxs = []) :
    offerTimeout s = finished s .timeout :=
  (if_pos ⟨hc, hx⟩).trans (rxStep_timeout h hc hx)

theorem offerTimeout_of_not_waiting (h : ¬ (s.rxphase ≠ .idle ∧ s.rxs = [] ∧ s.cancel = false)) :
    offerTimeout s = s :=
  offerTimeout_cases.resolve_right fun ⟨hp, hc, hx, _⟩ => h ⟨hp, hx, hc⟩

/-- Settles O55, by whether the block waits. -/
theorem timeoutIsTakenOnlyWhileWaiting : Obligations.TimeoutIsTakenOnlyWhileWaiting := by
  intro s rest hs
  rw [step_tmo hs, dropMove_eq hs]
  refine ⟨fun ⟨h, hx, hc⟩ => congrArg _ ?_, fun h => congrArg _ ?_⟩
  · exact offerTimeout_of_waiting (s := { s with sched := rest }) h hc hx
  · exact offerTimeout_of_not_waiting (s := { s with sched := rest }) h

theorem rxsPop_eq {b : Byte} {more : List Byte} (hx : s.rxs = b :: more) : s.rxsPop = { s with rxs := more } := by
  rw [State.rxsPop, hx, List.tail_cons]

/-- Settles O53, arm by arm. -/
theorem receiveStepArmsInOrder : Obligations.ReceiveStepArmsInOrder := by
  intro s rest
  refine ⟨fun h => ⟨fun hc hs => ?_, fun b more hc hx hs => ?_, fun hc hx hs => ?_, fun hc hx hs => ?_⟩,
    fun h hs => ?_⟩
  · rw [step_block_eq hs]
    exact congrArg _ (rxStep_cancel (s := { s with sched := rest }) h hc)
  · rw [step_block_eq hs, rxStep_byte (s := { s with sched := rest }) h hc hx,
      rxsPop_eq (s := { s with sched := rest }) hx]
  · exact (timeoutIsTakenOnlyWhileWaiting s rest hs).1 ⟨h, hx, hc⟩
  · rw [step_block_eq hs]
    exact congrArg _ (rxStep_waits (s := { s with sched := rest }) h hc hx)
  · obtain hs | hs := hs
    · exact idleBlockDoesNothing.2 s rest h hs
    · exact (timeoutIsTakenOnlyWhileWaiting s rest hs).2 fun hw => hw.1 h

/-! ### The wire rows -/

/-- Settles O57: what arrives is the frame, byte by byte. -/
theorem hfFrameArrivesOnTheReceiveStream : Obligations.HfFrameArrivesOnTheReceiveStream := by
  refine fun s opc p => ⟨fun _ => rfl, fun _ => ?_⟩
  rw [← hfLongFrame_eq]
  rfl

/-- Only the open byte of the sync pattern may need an escape. -/
theorem stuff_syncPattern (x : Byte) :
    stuff (syncPattern x) = [0x04, 0x0E] ++ stuff [x] ++ [0x01, 0xE0, 0xFC] := by
  have hcut : syncPattern x = [0x04, 0x0E] ++ [x] ++ [0x01, 0xE0, 0xFC] := rfl
  rw [hcut, stuff_append, stuff_append]
  rfl

/-- Settles O58: what arrives are the raw bytes of the pattern. -/
theorem slipPatternsArriveOnTheReceiveStream : Obligations.SlipPatternsArriveOnTheReceiveStream := by
  refine fun s => ⟨rfl, rfl, rfl, fun _ _ _ => rfl, fun _ => rfl, fun x => ?_⟩
  rw [← stuff_syncPattern]
  rfl

/-! ### SLIP encode then decode -/

/-- The frame of a payload within its limit is within the decoder's. -/
theorem slipEncFrame_length_le (p : List Byte) : (slipEncFrame p).length ≤ 2 * p.length + 2 := by
  have hdoubled : doubled p ≤ p.length := List.countP_le_length
  rw [slipEncFrame_length, stuff_length]
  omega

/-- A payload decoded is answered of its own frame only. -/
theorem slipDecAnswer_decoded {f p : List Byte} (h : slipDecAnswer f = .decoded p) : f = slipEncFrame p := by
  rw [slipDecAnswer] at h
  split at h
  · next q hq =>
    obtain rfl : q = p := by simpa using h
    exact (slipDecFrame_eq_ok_iff f q).mp hq
  · cases h

/-- Settles O47: the decoder undoes the encoder, and its answer names the frame. -/
theorem slipEncodeThenDecodeIsIdentity : Obligations.SlipEncodeThenDecodeIsIdentity := by
  refine ⟨fun s p h hd hp => ?_, fun s t f p h hrsp => ?_⟩
  · have hlen := slipEncFrame_length_le p
    have henc := (slipEncEmitsTheStuffedFrame s p).1 h hd hp
    have hdec := (slipDecAnswersTheTryDecode (s.emit (slipEncFrame p)) (slipEncFrame p)).1 h hd
      (show (slipEncFrame p).length ≤ 2 * s.params.txpayMax + 2 by omega)
    refine ⟨slipEncFrame p, _, _, henc, rfl, hdec.1 p (slipDecFrame_slipEncFrame p), ?_⟩
    rw [emit_rsp, List.append_assoc]
    rfl
  · obtain ⟨r, -, rfl⟩ | ⟨-, -, -, rfl⟩ := takeRequest_cases ((exec_slipDec f s).symm.trans h)
    · simp at hrsp
    · exact slipDecAnswer_decoded (by simpa using hrsp)

/-! ### A receive request -/

/-- The next step presents the request `i`, which is well formed. -/
theorem step_presentAll_request {i : Instr} (hs : s.sched = presentAll [i] ++ rest) (hw : i.wellFormed = true)
    (hi : i.format = .req) : step s = exec i { s with sched := rest } := by
  have hdrop : s.dropMove = { s with sched := rest } := dropMove_eq hs
  rw [step_presentAll_cons (is := []) hs (hi ▸ decode_req_encode hw hi), hdrop]

theorem step_hfRx {n tmo : Nat} (h : s.rxphase = .idle) (hd : s.params.dialect = .hf) (hn : 1 ≤ n)
    (hcap : n ≤ s.params.rxbufCap) (hfn : fits32 n) (hft : fits32 tmo)
    (hs : s.sched = presentAll [.hfRx n tmo] ++ rest) :
    step s = .next (State.startReceive { s with sched := rest } .collect n tmo) :=
  (step_presentAll_request hs (decide_eq_true ⟨hfn, hft⟩) rfl).trans
    ((hfRxStartsCollecting { s with sched := rest } n tmo).1 h hd hn hcap)

theorem step_slipRx {n tmo : Nat} (h : s.rxphase = .idle) (hd : s.params.dialect = .slip) (hn : 6 ≤ n)
    (hcap : n ≤ s.params.rxbufCap) (hfn : fits32 n) (hft : fits32 tmo)
    (hs : s.sched = presentAll [.slipRx n tmo] ++ rest) :
    step s = .next (State.startReceive { s with sched := rest } .search n tmo) :=
  (step_presentAll_request hs (decide_eq_true ⟨hfn, hft⟩) rfl).trans
    ((slipRxStartsSearching { s with sched := rest } n tmo).1 h hd hn hcap)

theorem finish_eq_of_finishedBuffer {s : State} {code : Status} {b : List Byte} (h : finishedBuffer s = b) :
    s.finish code =
      { s with rxbuf := b, status := code, rxphase := .idle, rsp := s.rsp ++ [.done code b] } := by
  subst h
  rfl

/-- A receive operation that ends before any byte is taken has an empty result, whichever its phase. -/
theorem finish_startReceive (s : State) (p : RxPhase) (n tmo : Nat) (code : Status) :
    (s.startReceive p n tmo).finish code = { s with
      explen := n
      rxbuf := []
      status := code
      rxphase := .idle
      timer := some tmo
      rsp := s.rsp ++ [.accept .unit, .done code []] } := by
  have hbuf : finishedBuffer (s.startReceive p n tmo) = [] := ite_self _
  rw [finish_eq_of_finishedBuffer hbuf, startReceive_rsp, List.append_assoc]
  rfl

/-- A receive operation that starts with `CANCEL` set ends at the block's first turn. -/
theorem step_startReceive_cancel {p : RxPhase} {n tmo : Nat} (hp : p ≠ .idle) (hc : s.cancel = true)
    (hs : s.sched = []) : step (s.startReceive p n tmo) = .next ((s.startReceive p n tmo).finish .cancelled) :=
  (step_no_move (s := s.startReceive p n tmo) hs).trans
    (congrArg _ (rxStep_cancel (s := s.startReceive p n tmo) hp hc))

/-- Settles O56: the request, then the first arm of the receive step. -/
theorem cancelledReceiveEndsAtItsFirstStep : Obligations.CancelledReceiveEndsAtItsFirstStep := by
  intro s n tmo i hi h hcap hfn hft hc hs
  have hs : s.sched = presentAll [i] ++ [] := hs
  obtain ⟨p, hp, hstart⟩ : ∃ p, p ≠ .idle ∧ step s = .next (State.startReceive { s with sched := [] } p n tmo) := by
    obtain ⟨rfl, hd, hn⟩ | ⟨rfl, hd, hn⟩ := hi
    · exact ⟨.collect, by decide, step_hfRx h hd hn hcap hfn hft hs⟩
    · exact ⟨.search, by decide, step_slipRx h hd hn hcap hfn hft hs⟩
  have hcancel := step_startReceive_cancel (s := { s with sched := [] }) (n := n) (tmo := tmo) hp hc rfl
  rw [runFor_succ 1 hstart, runFor_succ 0 hcancel, runFor_zero, finish_startReceive, ← h]

end Sys2Proof.Machine

/-! PROOFS. Runs of `HF.RX` (42_header_framed.md R135): the block takes byte after byte until the last, or until
`TMO`. -/

namespace Sys2Proof.Machine

open Sys2Proof.Claims

variable {s t : State} {n tmo : Nat} {got d raw : List Byte} {b : Byte} {moves rest : List Move}

/-! ### The block's turns -/

theorem step_turn (h : blocksTurn s) : step s = .next (blockTurn s.dropMove) := by
  obtain hs | ⟨rest, hs⟩ := h
  · rw [step_no_move hs, dropMove_of_no_move hs]
  · exact step_block hs

/-- A turn of a running operation takes the byte that waits. -/
theorem step_turn_byte (hturn : blocksTurn s) (h : s.rxphase ≠ .idle) (hc : s.cancel = false) (hx : s.rxs = b :: raw) :
    step s = .next (State.consume { s with rxs := raw, sched := s.sched.tail } b) := by
  have hpop : s.dropMove.rxsPop = { s with rxs := raw, sched := s.sched.tail } := rxsPop_eq (s := s.dropMove) hx
  rw [step_turn hturn, blockTurn, rxStep_byte (s := s.dropMove) h hc hx, hpop]

/-- The first `k` of the moves to come, as far as there are any, are the block's turns. -/
def turnsFirst (k : Nat) (moves : List Move) : Prop := ∀ m ∈ moves.take k, m = .block

theorem turnsFirst_nil (k : Nat) : turnsFirst k [] := by simp [turnsFirst]

theorem turnsFirst_replicate (k : Nat) (rest : List Move) : turnsFirst k (List.replicate k .block ++ rest) := by
  intro m hm
  rw [List.take_left' List.length_replicate] at hm
  exact List.eq_of_mem_replicate hm

theorem turnsFirst_succ {k : Nat} (h : turnsFirst (k + 1) moves) :
    (moves = [] ∨ ∃ rest, moves = .block :: rest) ∧ turnsFirst k moves.tail := by
  cases moves with
  | nil => exact ⟨.inl rfl, turnsFirst_nil k⟩
  | cons m rest =>
    rw [turnsFirst, List.take_succ_cons, List.forall_mem_cons] at h
    obtain ⟨rfl, hrest⟩ := h
    exact ⟨.inr ⟨rest, rfl⟩, hrest⟩

/-! ### A running operation -/

/-- A receive operation that `s` has accepted, in the phase `p` with the bytes `got`; the raw bytes `raw` wait, and the
moves `moves` are to come. -/
def State.receiving (s : State) (p : RxPhase) (n tmo : Nat) (got raw : List Byte) (moves : List Move) : State :=
  { s with
    explen := n
    rxbuf := got
    status := .none
    rxphase := p
    rxs := raw
    timer := some tmo
    rsp := s.rsp ++ [.accept .unit]
    sched := moves }

/-- Such an operation ended with `code` and the bytes `got`. -/
def State.received (s : State) (n tmo : Nat) (code : Status) (got raw : List Byte) (moves : List Move) : State :=
  { s with
    explen := n
    rxbuf := got
    status := code
    rxphase := .idle
    rxs := raw
    timer := some tmo
    rsp := s.rsp ++ [.accept .unit, .done code got]
    sched := moves }

theorem received_of_idle (h : s.rxphase = .idle) (n tmo : Nat) (code : Status) (got raw : List Byte)
    (moves : List Move) :
    s.received n tmo code got raw moves = { s with
      explen := n
      rxbuf := got
      status := code
      rxs := raw
      timer := some tmo
      rsp := s.rsp ++ [.accept .unit, .done code got]
      sched := moves } := by
  rw [State.received, ← h]

theorem startReceive_eq_receiving (s : State) (p : RxPhase) (n tmo : Nat) (moves : List Move) :
    State.startReceive { s with sched := moves } p n tmo = s.receiving p n tmo [] s.rxs moves := by
  simp only [State.startReceive, State.writeExplen, State.writeRxbuf, State.writeStatus, State.writePhase,
    State.passTimeout, State.respond, State.receiving]

/-- Behind the search an operation ends with the bytes it has. -/
theorem finish_receiving (s : State) (n tmo : Nat) (code : Status) (got raw : List Byte) (moves : List Move) :
    (s.receiving .collect n tmo got raw moves).finish code = s.received n tmo code got raw moves := by
  have hbuf : finishedBuffer (s.receiving .collect n tmo got raw moves) = got :=
    finishedBuffer_of_not_search (s := s.receiving .collect n tmo got raw moves) (by simp [State.receiving])
  rw [finish_eq_of_finishedBuffer hbuf]
  simp [State.receiving, State.received]

/-! ### Collecting under `HF` -/

/-- A turn takes the byte that waits. -/
theorem step_receiving_hf (hd : s.params.dialect = .hf) (hc : s.cancel = false)
    (hturn : moves = [] ∨ ∃ rest, moves = .block :: rest) :
    step (s.receiving .collect n tmo got (b :: raw) moves) =
      .next ((s.receiving .collect n tmo got raw moves.tail).consumeHf b) := by
  rw [← consume_hf (s := s.receiving .collect n tmo got raw moves.tail) b hd]
  exact step_turn_byte (s := s.receiving .collect n tmo got (b :: raw) moves) hturn nofun hc rfl

/-- Bytes before the last are kept, one a turn. -/
theorem runFor_receiving_hf (hd : s.params.dialect = .hf) (hc : s.cancel = false) (hlen : got.length + d.length < n)
    (hturns : turnsFirst d.length moves) :
    runFor d.length (s.receiving .collect n tmo got (d ++ raw) moves) =
      .next (s.receiving .collect n tmo (got ++ d) raw (moves.drop d.length)) := by
  induction d generalizing got moves with
  | nil => rw [List.append_nil]; rfl
  | cons b d ih =>
    obtain ⟨hturn, hturns⟩ := turnsFirst_succ hturns
    rw [List.length_cons] at hlen
    have hkept : step (s.receiving .collect n tmo got (b :: (d ++ raw)) moves) =
        .next (s.receiving .collect n tmo (got ++ [b]) (d ++ raw) moves.tail) :=
      (step_receiving_hf hd hc hturn).trans (congrArg _ (consumeHf_of_ne b (show got.length + 1 ≠ n by omega)))
    have hlen' : (got ++ [b]).length + d.length < n := by
      rw [List.length_append, List.length_singleton]
      omega
    rw [List.length_cons, List.cons_append, runFor_succ _ hkept, ih hlen' hturns, ← List.append_cons, List.drop_tail]

/-- The last byte ends the operation `OK`. -/
theorem step_receiving_hf_last (hd : s.params.dialect = .hf) (hc : s.cancel = false) (hlen : got.length + 1 = n)
    (hturn : moves = [] ∨ ∃ rest, moves = .block :: rest) :
    step (s.receiving .collect n tmo got (b :: raw) moves) =
      .next (s.received n tmo .ok (got ++ [b]) raw moves.tail) := by
  have hlast : (s.receiving .collect n tmo got raw moves.tail).consumeHf b =
      (s.receiving .collect n tmo (got ++ [b]) raw moves.tail).finish .ok := if_pos hlen
  rw [step_receiving_hf hd hc hturn, hlast, finish_receiving]

/-- Settles O38: the request, the bytes before the last, and the last. -/
theorem hfReceiveDeliversTheFirstBytes : Obligations.HfReceiveDeliversTheFirstBytes := by
  intro s n tmo d more h hd hn hcap hfn hft hc hlen hx hs
  obtain ⟨init, b, rfl⟩ : ∃ init b, d = init ++ [b] :=
    ⟨_, _, (List.dropLast_concat_getLast (List.ne_nil_of_length_pos (hlen ▸ hn))).symm⟩
  rw [List.length_append, List.length_singleton] at hlen
  have hrxs : s.rxs = init ++ b :: more := by rw [hx, List.append_assoc, List.singleton_append]
  have hstart := step_hfRx (rest := []) h hd hn hcap hfn hft hs
  rw [startReceive_eq_receiving, hrxs] at hstart
  have hbytes := runFor_receiving_hf (tmo := tmo) (raw := b :: more) (got := []) hd hc
    (show 0 + init.length < n by omega) (turnsFirst_nil init.length)
  rw [List.drop_nil] at hbytes
  have hlast := step_receiving_hf_last (tmo := tmo) (raw := more) (b := b) hd hc hlen (.inl rfl)
  rw [runFor_succ n hstart, ← hlen, runFor_add 1 (hlen ▸ hbytes), runFor_succ 0 (hlen ▸ hlast), runFor_zero, hlen,
    received_of_idle h, List.tail_nil]

/-- Settles O39: the request, the bytes there are, and `TMO`. -/
theorem hfReceiveTimesOutUndersized : Obligations.HfReceiveTimesOutUndersized := by
  intro s n tmo d h hd hcap hfn hft hc hlen hx hs
  rw [List.append_assoc] at hs
  have hstart := step_hfRx h hd (show 1 ≤ n by omega) hcap hfn hft hs
  rw [startReceive_eq_receiving, ← List.append_nil s.rxs, hx] at hstart
  have hbytes := runFor_receiving_hf (tmo := tmo) (raw := []) (got := []) hd hc (show 0 + d.length < n by omega)
    (turnsFirst_replicate d.length [.tmo])
  rw [List.drop_left' List.length_replicate] at hbytes
  have hend : step (s.receiving .collect n tmo d [] [.tmo]) = .next (s.received n tmo .timeout d [] []) := by
    rw [← finish_receiving]
    exact (timeoutIsTakenOnlyWhileWaiting (s.receiving .collect n tmo d [] [.tmo]) [] rfl).1 ⟨nofun, rfl, hc⟩
  rw [runFor_succ _ hstart, runFor_add 1 hbytes, List.nil_append, runFor_succ 0 hend, runFor_zero, received_of_idle h]

end Sys2Proof.Machine

/-! PROOFS. Runs of `SLIP.RX`: raw bytes de-stuff to delivered bytes (43_slip.md R169), and the symbols
of 30_encoding.md R77 stand for their bytes. -/

namespace Sys2Proof.Machine

open Sys2Proof.Claims

variable {s t : State} {n tmo : Nat} {e e' : Bool} {b d : Byte} {g u w p raw more : List Byte}

/-! ### De-stuffing whole sequences -/

theorem destuff_cons_nothing (h : unstuff e b = (e', .nothing)) : destuff e (b :: g) = destuff e' g := by
  rw [destuff, h]

theorem destuff_cons_byte (h : unstuff e b = (e', .byte d)) :
    destuff e (b :: g) = (destuff e' g).map fun r => (d :: r.1, r.2) := by
  rw [destuff, h]

theorem destuff_cons_error (h : unstuff e b = (e', .error)) : destuff e (b :: g) = none := by
  rw [destuff, h]

/-- De-stuffing goes on from the flag it left. -/
theorem destuff_append (h : destuff e g = some (u, e')) (more : List Byte) :
    destuff e (g ++ more) = (destuff e' more).map fun r => (u ++ r.1, r.2) := by
  induction g generalizing e u with
  | nil =>
    cases h
    simp
  | cons b g ih =>
    rw [List.cons_append]
    obtain hu | ⟨d, hu⟩ | ⟨e₁, hu⟩ := unstuff_cases e b
    · simp [destuff_cons_error hu] at h
    · rw [destuff_cons_byte hu, Option.map_eq_some_iff] at h
      obtain ⟨⟨u', e₂⟩, hu', heq⟩ := h
      cases heq
      rw [destuff_cons_byte hu, ih hu', Option.map_map]
      rfl
    · rw [destuff_cons_nothing hu] at h ⊢
      exact ih h

/-- The raw bytes of a byte de-stuff to it. -/
theorem destuff_slipSym (b : Byte) : destuff false (slipSym b) = some ([b], false) := by
  obtain ⟨rfl, h⟩ | ⟨rfl, h⟩ | ⟨hend, hesc, h⟩ := slipSym_cases b <;> rw [h]
  · rfl
  · rfl
  · rw [destuff_cons_byte (unstuff_literal hend hesc)]
    rfl

theorem destuff_stuff (p : List Byte) : destuff false (stuff p) = some (p, false) := by
  induction p with
  | nil => rfl
  | cons b p ih =>
    rw [stuff_cons, destuff_append (destuff_slipSym b), ih]
    rfl

/-! ### Delivering several bytes -/

/-- The de-stuffed bytes of `w` are delivered, in order. -/
def deliverAll (s : State) (w : List Byte) : State := w.foldl State.deliver s

@[simp] theorem deliverAll_nil (s : State) : deliverAll s [] = s := rfl

@[simp] theorem deliverAll_cons (s : State) (d : Byte) (w : List Byte) :
    deliverAll s (d :: w) = deliverAll (s.deliver d) w := rfl

theorem deliverAll_append (s : State) (w w' : List Byte) : deliverAll s (w ++ w') = deliverAll (deliverAll s w) w' :=
  List.foldl_append

theorem deliverAll_withRaw (s : State) (w : List Byte) (e : Bool) (x : List Byte) (v : Option Nat) :
    deliverAll (s.withRaw e x v) w = (deliverAll s w).withRaw e x v := by
  induction w generalizing s with
  | nil => rfl
  | cons d w ih => rw [deliverAll_cons, deliver_withRaw, ih, deliverAll_cons]

/-- An ended operation is not started again. -/
theorem deliver_idle (h : s.rxphase = .idle) (d : Byte) : (s.deliver d).rxphase = .idle := by
  obtain ⟨-, -, ht⟩ | ⟨hs, -⟩ | ⟨hs, -⟩ | ⟨hi, -⟩ := @deliver_cases s d
  · rw [ht]
    exact h
  · simp [h] at hs
  · simp [h] at hs
  · exact absurd h hi

theorem deliverAll_idle (h : s.rxphase = .idle) (w : List Byte) : (deliverAll s w).rxphase = .idle := by
  induction w generalizing s with
  | nil => exact h
  | cons d w ih => exact ih (deliver_idle h d)

/-! ### Stage A in runs -/

/-- A turn of a running `SLIP.RX` with no move left takes the byte that waits. -/
theorem step_raw (hd : s.params.dialect = .slip) (h : s.rxphase ≠ .idle) (hc : s.cancel = false) (hs : s.sched = [])
    (hx : s.rxs = b :: raw) : step s = .next ((s.withRaw s.esc raw s.timer).consumeSlip b) := by
  have htail : s.sched.tail = s.sched := by rw [hs, List.tail_nil]
  rw [step_turn_byte (.inl hs) h hc hx, htail]
  exact congrArg _ (consume_slip (s := s.withRaw s.esc raw s.timer) b hd)

theorem step_raw_nothing (hd : s.params.dialect = .slip) (h : s.rxphase ≠ .idle) (hc : s.cancel = false)
    (hs : s.sched = []) (hx : s.rxs = b :: raw) (hu : unstuff s.esc b = (e', .nothing)) :
    step s = .next (s.withRaw e' raw s.timer) :=
  (step_raw hd h hc hs hx).trans (congrArg _ (consumeSlip_of_nothing rfl hu))

theorem step_raw_byte (hd : s.params.dialect = .slip) (h : s.rxphase ≠ .idle) (hc : s.cancel = false)
    (hs : s.sched = []) (hx : s.rxs = b :: raw) (hu : unstuff s.esc b = (e', .byte d)) :
    step s = .next ((s.deliver d).withRaw e' raw s.timer) := by
  rw [← deliver_withRaw]
  exact (step_raw hd h hc hs hx).trans (congrArg _ (consumeSlip_of_byte rfl hu))

/-- Raw bytes that de-stuff to `w` deliver `w`, where the operation still runs behind it. -/
theorem runFor_destuff (hd : s.params.dialect = .slip) (hc : s.cancel = false) (hs : s.sched = [])
    (hx : s.rxs = g ++ raw) (hg : destuff s.esc g = some (w, e')) (hrun : (deliverAll s w).rxphase ≠ .idle) :
    runFor g.length s = .next ((deliverAll s w).withRaw e' raw s.timer) := by
  induction g generalizing s w with
  | nil =>
    cases hg
    rw [← hx.trans (List.nil_append raw)]
    rfl
  | cons b g ih =>
    have h : s.rxphase ≠ .idle := fun hi => hrun (deliverAll_idle hi w)
    rw [List.cons_append] at hx
    rw [List.length_cons]
    obtain hu | ⟨d, hu⟩ | ⟨e₁, hu⟩ := unstuff_cases s.esc b
    · simp [destuff_cons_error hu] at hg
    · rw [destuff_cons_byte hu, Option.map_eq_some_iff] at hg
      obtain ⟨⟨w', e₂⟩, hg, heq⟩ := hg
      cases heq
      obtain ⟨hparams, -, -, hcancel, hsched, -⟩ := deliver_frame s d
      rw [runFor_succ _ (step_raw_byte hd h hc hs hx hu),
        ih (s := (s.deliver d).withRaw false (g ++ raw) s.timer) (w := w') (hparams ▸ hd) (hcancel.trans hc)
          (hsched.trans hs) rfl hg (by rw [deliverAll_withRaw]; exact hrun), deliverAll_withRaw]
      rfl
    · rw [destuff_cons_nothing hu] at hg
      rw [runFor_succ _ (step_raw_nothing hd h hc hs hx hu),
        ih (s := s.withRaw e₁ (g ++ raw) s.timer) hd hc hs rfl hg (by rw [deliverAll_withRaw]; exact hrun),
        deliverAll_withRaw]
      rfl

/-- The raw bytes of one symbol deliver its byte, even if that ends the operation. -/
theorem runFor_slipSym (hd : s.params.dialect = .slip) (h : s.rxphase ≠ .idle) (hc : s.cancel = false)
    (hs : s.sched = []) (he : s.esc = false) (hx : s.rxs = slipSym b ++ raw) :
    runFor (slipSym b).length s = .next ((s.deliver b).withRaw false raw s.timer) := by
  have escaped : ∀ {c : Byte}, slipSym b = [slipESC, c] → unstuff true c = (false, .byte b) →
      runFor (slipSym b).length s = .next ((s.deliver b).withRaw false raw s.timer) := by
    intro c hsym hu
    rw [hsym] at hx ⊢
    have hesc : step s = .next (s.withRaw true (c :: raw) s.timer) :=
      step_raw_nothing hd h hc hs hx (by rw [he]; rfl)
    have hbyte : step (s.withRaw true (c :: raw) s.timer) =
        .next (((s.withRaw true (c :: raw) s.timer).deliver b).withRaw false raw s.timer) :=
      step_raw_byte hd h hc hs rfl hu
    rw [deliver_withRaw] at hbyte
    exact (runFor_succ 1 hesc).trans (runFor_succ 0 hbyte)
  obtain ⟨rfl, hsym⟩ | ⟨rfl, hsym⟩ | ⟨hend, hesc, hsym⟩ := slipSym_cases b
  · exact escaped hsym rfl
  · exact escaped hsym rfl
  · rw [hsym] at hx ⊢
    exact runFor_succ 0 (step_raw_byte hd h hc hs hx (by rw [he]; exact unstuff_literal hend hesc))

/-- The raw bytes of a symbol that arrive at an empty `RXS` deliver its byte. -/
theorem runFor_slipSym_arrived (hd : s.params.dialect = .slip) (h : s.rxphase ≠ .idle) (hc : s.cancel = false)
    (hs : s.sched = []) (he : s.esc = false) (hx : s.rxs = []) (b : Byte) :
    runFor (slipSym b).length (s.rxsAppend (slipSym b)) = .next (s.deliver b) := by
  have hraw : (s.rxsAppend (slipSym b)).rxs = slipSym b ++ [] := by rw [rxsAppend_rxs, hx]; simp
  have hdeliver : (s.rxsAppend (slipSym b)).deliver b = (s.deliver b).withRaw s.esc (s.rxs ++ slipSym b) s.timer :=
    deliver_withRaw s b s.esc (s.rxs ++ slipSym b) s.timer
  rw [runFor_slipSym (s := s.rxsAppend (slipSym b)) hd h hc hs he hraw, hdeliver]
  calc Host.Outcome.next ((s.deliver b).withRaw false [] s.timer)
    _ = .next ((s.deliver b).withRaw s.esc s.rxs s.timer) := by rw [he, hx]
    _ = .next (s.deliver b) := by rw [← deliver_withRaw]; rfl

/-- Settles O59: the raw bytes of each symbol, and the delimiter. -/
theorem symbolsStandForTheirBytes : Obligations.SymbolsStandForTheirBytes := by
  intro s t hd h hc he hx hs
  have arrived := runFor_slipSym_arrived hd h hc hs he hx
  refine ⟨fun ht => ?_, fun ht => ?_, fun b hend hesc ht => ?_, fun ht => ?_⟩
  · obtain rfl := Host.Outcome.next.inj ht
    exact arrived slipEND
  · obtain rfl := Host.Outcome.next.inj ht
    exact arrived slipESC
  · obtain rfl := Host.Outcome.next.inj ht
    have hb := arrived b
    rwa [slipSym_literal hend hesc] at hb
  · obtain rfl := Host.Outcome.next.inj ht
    have hraw : (s.rxsAppend [slipEND]).rxs = slipEND :: [] := by rw [rxsAppend_rxs, hx]; rfl
    have hstep := step_raw_nothing (s := s.rxsAppend [slipEND]) (e' := false) hd h hc hs hraw
      (by rw [rxsAppend_esc, he]; rfl)
    refine (runFor_succ 0 hstep).trans (congrArg Host.Outcome.next ?_)
    calc (s.rxsAppend [slipEND]).withRaw false [] s.timer
      _ = s.withRaw s.esc s.rxs s.timer := by rw [he, hx]; rfl
      _ = s := rfl

end Sys2Proof.Machine

/-! PROOFS. The search of `SLIP.RX` behind noise (43_slip.md R170, R173): the window holds the last five bytes until the
pattern completes it, and the collection goes on to the last byte. -/

namespace Sys2Proof.Machine

open Sys2Proof.Claims

variable {s : State} {n tmo : Nat} {u w p got d raw : List Byte} {b : Byte} {moves : List Move}

/-! ### One byte -/

/-- The window is not yet full. -/
theorem deliver_search_short (h : got.length < 5) :
    (s.receiving .search n tmo got raw moves).deliver b = s.receiving .search n tmo (got ++ [b]) raw moves :=
  (deliverSearchesThenCollects _ b).1 rfl (show got.length + 1 ≠ 6 by omega)

/-- The window is full and does not match. -/
theorem deliver_search_slides (h : got.length = 5) (hm : syncMatch (got ++ [b]) = false) :
    (s.receiving .search n tmo got raw moves).deliver b = s.receiving .search n tmo ((got ++ [b]).drop 1) raw moves :=
  (deliverSearchesThenCollects (s.receiving .search n tmo got raw moves) b).2.1 rfl (congrArg (· + 1) h) hm

/-- The window matches, and more bytes are to come. -/
theorem deliver_search_synced (h : got.length = 5) (hm : syncMatch (got ++ [b]) = true) (hn : n ≠ 6) :
    (s.receiving .search n tmo got raw moves).deliver b = s.receiving .collect n tmo (got ++ [b]) raw moves :=
  (deliverSearchesThenCollects (s.receiving .search n tmo got raw moves) b).2.2.1 rfl (congrArg (· + 1) h) hm hn

/-- The window matches, and the pattern is all that was asked for. -/
theorem deliver_search_last (h : got.length = 5) (hm : syncMatch (got ++ [b]) = true) :
    (s.receiving .search 6 tmo got raw moves).deliver b = s.received 6 tmo .ok (got ++ [b]) raw moves := by
  rw [(deliverSearchesThenCollects (s.receiving .search 6 tmo got raw moves) b).2.2.2.1 rfl (congrArg (· + 1) h) hm rfl]
  simp [State.receiving, State.received]

/-- A byte before the last. -/
theorem deliver_collect_kept (h : got.length + 1 ≠ n) :
    (s.receiving .collect n tmo got raw moves).deliver b = s.receiving .collect n tmo (got ++ [b]) raw moves :=
  (deliverSearchesThenCollects (s.receiving .collect n tmo got raw moves) b).2.2.2.2.1 rfl h

/-- The last byte. -/
theorem deliver_collect_last (h : got.length + 1 = n) :
    (s.receiving .collect n tmo got raw moves).deliver b = s.received n tmo .ok (got ++ [b]) raw moves := by
  rw [(deliverSearchesThenCollects (s.receiving .collect n tmo got raw moves) b).2.2.2.2.2 rfl h]
  simp [State.receiving, State.received]

/-! ### Several bytes -/

/-- No window of six inside `w` matches. -/
def noMatch (w : List Byte) : Prop := ∀ k, k + 6 ≤ w.length → syncMatch ((w.drop k).take 6) = false

theorem noMatch_of_append (h : noMatch (w ++ d)) : noMatch w := by
  intro k hk
  have hlen : k + 6 ≤ (w ++ d).length := by rw [List.length_append]; omega
  have hwindow : 6 ≤ (w.drop k).length := by rw [List.length_drop]; omega
  have hm := h k hlen
  rwa [List.drop_append_of_le_length (by omega), List.take_append_of_le_length hwindow] at hm

/-- Without a match the search goes on, with the last five bytes in its window. -/
theorem deliverAll_search (h : noMatch w) :
    deliverAll (s.receiving .search n tmo [] raw moves) w =
      s.receiving .search n tmo (w.drop (w.length - 5)) raw moves := by
  induction w using List.reverseRecOn with
  | nil => rfl
  | append_singleton w b ih =>
    rw [deliverAll_append, ih (noMatch_of_append h), deliverAll_cons, deliverAll_nil, List.length_append,
      List.length_singleton]
    by_cases hshort : w.length < 5
    · have hall : w.length - 5 = 0 ∧ w.length + 1 - 5 = 0 := by omega
      rw [hall.1, hall.2, List.drop_zero, List.drop_zero, deliver_search_short hshort]
    · have hwindow : (w.drop (w.length - 5)).length = 5 := by rw [List.length_drop]; omega
      have hdrop : w.drop (w.length - 5) ++ [b] = (w ++ [b]).drop (w.length - 5) :=
        (List.drop_append_of_le_length (by omega)).symm
      have hsix : ((w ++ [b]).drop (w.length - 5)).length = 6 := by rw [← hdrop, List.length_append, hwindow]; rfl
      have hm := h (w.length - 5) (by rw [List.length_append, List.length_singleton]; omega)
      rw [List.take_of_length_le hsix.le, ← hdrop] at hm
      rw [deliver_search_slides hwindow hm, hdrop, List.drop_drop, show w.length - 5 + 1 = w.length + 1 - 5 by omega]

theorem deliverAll_collect (h : got.length + d.length < n) :
    deliverAll (s.receiving .collect n tmo got raw moves) d = s.receiving .collect n tmo (got ++ d) raw moves := by
  induction d generalizing got with
  | nil => rw [List.append_nil, deliverAll_nil]
  | cons b d ih =>
    rw [List.length_cons] at h
    have hlen : (got ++ [b]).length + d.length < n := by
      rw [List.length_append, List.length_singleton]
      omega
    rw [deliverAll_cons, deliver_collect_kept (by omega), ih hlen, ← List.append_cons]

/-! ### Behind noise -/

/-- The first match of `u` followed by `p` is where `p` begins. -/
def matchesFirstBehind (u p : List Byte) : Prop :=
  syncMatch (p.take 6) = true ∧ ∀ k, k < u.length → syncMatch (((u ++ p).drop k).take 6) = false

/-- Up to the fifth byte of the pattern nothing matches. -/
theorem noMatch_before_pattern (h : matchesFirstBehind u p) (hp : 6 ≤ p.length) : noMatch (u ++ p.take 5) := by
  intro k hk
  have htake : u ++ p.take 5 = (u ++ p).take (u.length + 5) := (List.take_length_add_append 5).symm
  have hlen : (u ++ p.take 5).length = u.length + 5 := by rw [List.length_append, List.length_take]; omega
  rw [htake, List.drop_take, List.take_take, min_eq_left (by omega)]
  exact h.2 k (by omega)

theorem deliverAll_pattern (h : matchesFirstBehind u p) (hp : 6 ≤ p.length) :
    deliverAll (s.receiving .search n tmo [] raw moves) (u ++ p.take 5) =
      s.receiving .search n tmo (p.take 5) raw moves := by
  have hlen : (u ++ p.take 5).length - 5 = u.length := by rw [List.length_append, List.length_take]; omega
  rw [deliverAll_search (noMatch_before_pattern h hp), hlen, List.drop_left]

/-- Before its last byte the operation has found the pattern's place, and that byte ends it. -/
theorem deliverAll_behind_noise (h : matchesFirstBehind u p) (hn : 6 ≤ n) (hp : n - 1 < p.length) :
    ∃ q, q ≠ .idle ∧
      deliverAll (s.receiving .search n tmo [] raw moves) (u ++ p.take (n - 1)) =
        s.receiving q n tmo (p.take (n - 1)) raw moves ∧
      ∀ raw moves, (s.receiving q n tmo (p.take (n - 1)) raw moves).deliver p[n - 1] =
        s.received n tmo .ok (p.take (n - 1) ++ [p[n - 1]]) raw moves := by
  have hfive : (p.take 5).length = 5 := by rw [List.length_take]; omega
  have hsix : p.take 5 ++ [p[5]] = p.take 6 := List.take_append_getElem (by omega)
  have hpattern := deliverAll_pattern (s := s) (n := n) (tmo := tmo) (raw := raw) (moves := moves) h (by omega)
  by_cases h6 : n = 6
  · subst h6
    exact ⟨.search, by decide, hpattern, fun raw moves => deliver_search_last hfive (by rw [hsix]; exact h.1)⟩
  · refine ⟨.collect, by decide, ?_, fun raw moves => deliver_collect_last (by rw [List.length_take]; omega)⟩
    have hcut := (List.take_append_drop 6 (p.take (n - 1))).symm
    rw [List.take_take, min_eq_left (by omega)] at hcut
    have hlen : (p.take 6).length + ((p.take (n - 1)).drop 6).length < n := by
      rw [← List.length_append, ← hcut, List.length_take]
      omega
    rw [hcut, ← hsix, ← List.append_assoc, ← List.append_assoc, deliverAll_append, deliverAll_append, hpattern,
      deliverAll_cons, deliverAll_nil, deliver_search_synced hfive (by rw [hsix]; exact h.1) h6, hsix,
      deliverAll_collect hlen]

/-- The payload's raw bytes, cut around the byte at `k`. -/
theorem stuff_cut {k : Nat} (h : k < p.length) :
    stuff p = stuff (p.take k) ++ (slipSym p[k] ++ stuff (p.drop (k + 1))) := by
  rw [← stuff_cons, ← stuff_append, List.getElem_cons_drop, List.take_append_drop]

/-- The delimiter before a frame de-stuffs to nothing. -/
theorem destuff_noise_frame {g : List Byte} (hg : destuff false g = some (u, false)) (q : List Byte) :
    destuff false (g ++ slipEND :: stuff q) = some (u ++ q, false) := by
  rw [destuff_append hg, destuff_cons_nothing unstuff_end, destuff_stuff]
  rfl

theorem receiving_withRaw (he : s.esc = false) (q : RxPhase) (got raw raw' : List Byte) :
    (s.receiving q n tmo got raw moves).withRaw false raw' (some tmo) = s.receiving q n tmo got raw' moves := by
  simp [State.receiving, State.withRaw, he]

theorem received_withRaw (he : s.esc = false) (code : Status) (got raw raw' : List Byte) :
    (s.received n tmo code got raw moves).withRaw false raw' (some tmo) = s.received n tmo code got raw' moves := by
  simp [State.received, State.withRaw, he]

/-- Raw bytes that de-stuff to the noise and all but the last of the `n` bytes, and then the last symbol. -/
theorem runFor_receiving_slip {before behind : List Byte} (hd : s.params.dialect = .slip) (hc : s.cancel = false)
    (he : s.esc = false) (h : matchesFirstBehind u p) (hn : 6 ≤ n) (hp : n - 1 < p.length)
    (hbefore : destuff false before = some (u ++ p.take (n - 1), false)) :
    runFor (before.length + (slipSym p[n - 1]).length)
        (s.receiving .search n tmo [] (before ++ (slipSym p[n - 1] ++ behind)) []) =
      .next (s.received n tmo .ok (p.take (n - 1) ++ [p[n - 1]]) behind []) := by
  obtain ⟨q, hq, hrun, hend⟩ := deliverAll_behind_noise (s := s) (tmo := tmo)
    (raw := before ++ (slipSym p[n - 1] ++ behind)) (moves := []) h hn hp
  have hnoise : runFor before.length (s.receiving .search n tmo [] (before ++ (slipSym p[n - 1] ++ behind)) []) =
      .next (s.receiving q n tmo (p.take (n - 1)) (slipSym p[n - 1] ++ behind) []) := by
    rw [← receiving_withRaw he q _ (before ++ (slipSym p[n - 1] ++ behind)), ← hrun]
    exact runFor_destuff (s := s.receiving .search n tmo [] (before ++ (slipSym p[n - 1] ++ behind)) []) hd hc rfl rfl
      ((congrArg (destuff · before) he).trans hbefore) (by rw [hrun]; exact hq)
  rw [runFor_add _ hnoise, ← received_withRaw he _ _ (slipSym p[n - 1] ++ behind), ← hend]
  exact runFor_slipSym (s := s.receiving q n tmo (p.take (n - 1)) (slipSym p[n - 1] ++ behind) []) hd hq hc rfl he rfl

/-- Settles O52: the request, and the raw bytes cut before and behind the last symbol. -/
theorem slipReceiveFindsTheFrameBehindNoise : Obligations.SlipReceiveFindsTheFrameBehindNoise := by
  intro s n tmo g u p more h hd hcap hfn hft hc he hn hp hm hg hno hx hs
  have hlast : n - 1 < p.length := by omega
  have hsucc : n - 1 + 1 = n := by omega
  have htake : p.take (n - 1) ++ [p[n - 1]] = p.take n := by rw [List.take_append_getElem hlast, hsucc]
  have hcut := stuff_cut hlast
  rw [hsucc] at hcut
  have hrxs : s.rxs = (g ++ slipEND :: stuff (p.take (n - 1))) ++
      (slipSym p[n - 1] ++ (stuff (p.drop n) ++ [slipEND] ++ more)) := by
    rw [hx, slipEncFrame_eq, hcut]
    simp
  have hsteps : 1 + g.length + 1 + (stuff (p.take n)).length =
      (g ++ slipEND :: stuff (p.take (n - 1))).length + (slipSym p[n - 1]).length + 1 := by
    rw [← htake, stuff_append]
    simp
    omega
  have hstart := step_slipRx (rest := []) h hd hn hcap hfn hft hs
  rw [startReceive_eq_receiving, hrxs] at hstart
  rw [hsteps, runFor_succ _ hstart, runFor_receiving_slip hd hc he ⟨hm, hno⟩ hn hlast (destuff_noise_frame hg _), htake,
    received_of_idle h]
  rfl

end Sys2Proof.Machine
